-- ==== Sys2Proof/Word.lean ====
section
/-! DEFINITION. The quantities of the block: the byte, the 32-bit value and the frame of nine bytes
(00_scope.md R4, R6, R7). -/

namespace Sys2Proof

/-- A byte, 0 to 255, bit 7 the most significant (R6). -/
abbrev Byte := BitVec 8

/-- An int32 as its 32 bits in two's complement (R6): `toNat` is the spec's `u32`, `toInt` the signed reading. -/
abbrev Value := BitVec 32

/-- A frame: exactly nine bytes, `b0` the first on the wire (R7). -/
structure Frame where
  b0 : Byte
  b1 : Byte
  b2 : Byte
  b3 : Byte
  b4 : Byte
  b5 : Byte
  b6 : Byte
  b7 : Byte
  b8 : Byte
deriving DecidableEq, Repr, Inhabited

end Sys2Proof
end

