-- ==== Sys2Proof/Machine/Codec.lean ====
section
/-! DEFINITION. The pure functions of the frame codec: the checksum (40_checksum.md), the value field,
`ENCODE` and `DECODE` (41_codec.md), and the numbering of a frame as one 72-bit word (R7). -/

namespace Sys2Proof

/-- The nine bytes in wire order. -/
def Frame.bytes (f : Frame) : List Byte := [f.b0, f.b1, f.b2, f.b3, f.b4, f.b5, f.b6, f.b7, f.b8]

/-- The span `F[0..8)` a checksum is taken over (R7). -/
def Frame.span (f : Frame) : List Byte := [f.b0, f.b1, f.b2, f.b3, f.b4, f.b5, f.b6, f.b7]

/-- `F[n]`, for `n` from 0 to 8; no caller passes a larger index. -/
def Frame.get (f : Frame) : Nat → Byte
  | 0 => f.b0
  | 1 => f.b1
  | 2 => f.b2
  | 3 => f.b3
  | 4 => f.b4
  | 5 => f.b5
  | 6 => f.b6
  | 7 => f.b7
  | _ => f.b8

/-- `F` with `F[n]` replaced, for `n` from 0 to 8; no caller passes a larger index. -/
def Frame.set (f : Frame) (n : Nat) (b : Byte) : Frame :=
  match n with
  | 0 => { f with b0 := b }
  | 1 => { f with b1 := b }
  | 2 => { f with b2 := b }
  | 3 => { f with b3 := b }
  | 4 => { f with b4 := b }
  | 5 => { f with b5 := b }
  | 6 => { f with b6 := b }
  | 7 => { f with b7 := b }
  | _ => { f with b8 := b }

/-- Nine bytes as a frame; any other number of bytes is no frame (R61). -/
def Frame.ofBytes : List Byte → Option Frame
  | [b0, b1, b2, b3, b4, b5, b6, b7, b8] => some ⟨b0, b1, b2, b3, b4, b5, b6, b7, b8⟩
  | _ => none

/-- A frame as one 72-bit word, `F[0]` in bits 71 to 64 (R7). -/
def Frame.word (f : Frame) : BitVec 72 :=
  f.b0 ++ f.b1 ++ f.b2 ++ f.b3 ++ f.b4 ++ f.b5 ++ f.b6 ++ f.b7 ++ f.b8

/-- The frame a 72-bit word stands for (R7). -/
def Frame.ofWord (w : BitVec 72) : Frame :=
  ⟨w.extractLsb' 64 8, w.extractLsb' 56 8, w.extractLsb' 48 8, w.extractLsb' 40 8, w.extractLsb' 32 8,
   w.extractLsb' 24 8, w.extractLsb' 16 8, w.extractLsb' 8 8, w.extractLsb' 0 8⟩

/-- `CKSUM(s)`: the sum over the integers, modulo 256 (R70). -/
def checksum (s : List Byte) : Byte := BitVec.ofNat 8 (s.map BitVec.toNat).sum

/-- `VALID(F)`: byte 8 is the checksum of the span (R77). -/
def Frame.valid (f : Frame) : Bool := f.b8 == checksum f.span

/-- `PACK32(v)`, most significant byte first (R80). -/
def packValue (v : Value) : Byte × Byte × Byte × Byte :=
  (v.extractLsb' 24 8, v.extractLsb' 16 8, v.extractLsb' 8 8, v.extractLsb' 0 8)

/-- `UNPACK32(p)`, the first byte the most significant (R81). -/
def unpackValue (p0 p1 p2 p3 : Byte) : Value := p0 ++ p1 ++ p2 ++ p3

/-- The value field `UNPACK32(F[4..8))` of a frame (R52, C4). -/
def Frame.value (f : Frame) : Value := unpackValue f.b4 f.b5 f.b6 f.b7

/-- A frame from its fields, with the checksum byte given (R50, R51). -/
def frameWith (b0 b1 b2 b3 : Byte) (v : Value) (ck : Byte) : Frame :=
  let p := packValue v
  ⟨b0, b1, b2, b3, p.1, p.2.1, p.2.2.1, p.2.2.2, ck⟩

/-- A frame from its fields, with the checksum byte that makes it valid (R50, R51, R77). -/
def sealedFrame (b0 b1 b2 b3 : Byte) (v : Value) : Frame :=
  frameWith b0 b1 b2 b3 v (checksum (frameWith b0 b1 b2 b3 v 0).span)

/-- `ENCODE(cmd, type, bank, value)` for the address byte `addr` (R82). -/
def encodeFrame (addr cmd type bank : Byte) (value : Value) : Frame := sealedFrame addr cmd type bank value

/-- `DECODE(F)`: the status byte and the value, or none for `ChecksumError` (R84). -/
def decodeFrame (f : Frame) : Option (Byte × Value) :=
  if f.valid then some (f.b2, f.value) else none

end Sys2Proof
end

