-- ==== Sys2Proof/Machine/Regs.lean ====
section
/-! DEFINITION. The registers that live inside one exchange (10_state.md sections 2 to 5) and the
names of the phases and of the host operations. -/

namespace Sys2Proof.Machine

/-- The values of the sequencing register `PHASE` (R13). -/
inductive Phase where
  | idle | sys | chkconn | encode | tsend | write | read | decode | trecv | classify
deriving DecidableEq, Repr, Inhabited

/-- The values of the operand latch `OP` (R15): the three codes of `HREQ.op` that are not reserved (R56). -/
inductive OpCode where
  | exec | attach | detach
deriving DecidableEq, Repr, Inhabited

/-- The registers of the block that hold nothing between exchanges (R12): each is named as the spec
names it. `OWNER` is a caller index, of any size (R15). -/
structure Regs where
  /-- `CNT` (R14). -/
  cnt : BitVec 4
  /-- `OP` (R15). -/
  op : OpCode
  /-- `OWNER` (R15). -/
  owner : Nat
  /-- `CMD` (R15). -/
  cmd : Byte
  /-- `TYPE` (R15). -/
  type : Byte
  /-- `BANK` (R15). -/
  bank : Byte
  /-- `VALUE` (R15). -/
  value : Value
  /-- `ST` (R16). -/
  st : Byte
  /-- `RV` (R16). -/
  rv : Value
  /-- `TXF` (R17). -/
  txf : Frame
  /-- `RXF` (R17). -/
  rxf : Frame
  /-- `ACC` (R18). -/
  acc : Byte
  /-- `CKOK` (R19). -/
  ckok : Bool
deriving DecidableEq, Repr, Inhabited

end Sys2Proof.Machine
end

