-- ==== Sys2Proof/Config.lean ====
section
/-! DEFINITION. What an implementation fixes (00_scope.md R5) and the free values: the values the spec
leaves open, each an opaque constant, so that no proof can rest on what it is. -/

namespace Sys2Proof

/-- The address byte `ADDR` (R20). UNVERIFIED, unsafe: the spec calls the literal unaudited (D1, C6; log 1). -/
def Config.address : Byte := 0x02

/-- `CONN_AT_RESET`, the default of D9 (R27; log 2). -/
def Config.connAtReset : Bool := false

/-- One less than `N_CALLERS` (R5, D7): open, so opaque; safe (log 10). -/
opaque Config.otherCallers : Nat

/-- `CAUSE_W` (R5, D22): open, so opaque; safe (log 10). -/
opaque Config.causeWidth : Nat

/-- `TRACE_PRESENT` (R5, R113): either, so opaque; safe (log 10). -/
opaque Config.tracePresent : Bool

/-- The n-th `draw int32` (R8): the value operand of an `OnReceive` event after a failed checksum test
(R109, D13, U3). A free value; safe (log 5). -/
opaque Config.drawInt32 : Nat → Value

/-- What the transient registers hold while no exchange is in flight (R12, R27, U4). A free value; safe (log 4). -/
opaque Config.deadRegs : Nat → Machine.Regs

/-- The parameters of the block (R5), carried in the state as data that no step changes: a claim about
every state is a claim about every value of them (D1; log 10). `ARB_FAIR`, `T_READ_BOUNDED` and
`T_WRITE_PROMPT` are no values: they are premises on runs, in Safety.lean (log 26). -/
structure Params where
  /-- `ADDR` (R20). -/
  addr : Byte
  /-- `CONN_AT_RESET` (R5). -/
  connAtReset : Bool
  /-- One less than `N_CALLERS`: there is at least one caller (R5). -/
  otherCallers : Nat
  /-- `CAUSE_W` (R5). -/
  causeW : Nat
  /-- `TRACE_PRESENT` (R5). -/
  tracePresent : Bool
deriving DecidableEq, Repr

/-- `N_CALLERS`, at least 1 (R5, D7). -/
def Params.nCallers (p : Params) : Nat := p.otherCallers + 1

/-- The parameters at the values the spec gives them, the open ones opaque. -/
def Config.params : Params :=
  { addr := Config.address, connAtReset := Config.connAtReset, otherCallers := Config.otherCallers,
    causeW := Config.causeWidth, tracePresent := Config.tracePresent }

end Sys2Proof
end

