-- ==== Sys2Proof/Machine/State.lean ====
section
/-! DEFINITION. The state of the block and of its environment (10_state.md), the outcomes of its
operations (R9), and the state after reset (R27). -/

namespace Sys2Proof.Machine

/-- Which of the two transfers of an exchange failed (R9, D22). -/
inductive IoPhase where
  | write | read
deriving DecidableEq, Repr

/-- The kinds of `ProtocolStatusError` (R9, R144). -/
inductive StatusKind where
  | checksumMismatchReported
  | invalidCommand
  | wrongType
  | invalidType
  | configurationLocked
  | commandNotAvailable
  | unknownStatus (code : Byte)
deriving DecidableEq, Repr

/-- The result of a host operation: the spec's type `Outcome` (R9). -/
inductive OpOutcome where
  | ok (value : Value)
  | notConnected
  | transportError (phase : IoPhase) (cause : Nat)
  | checksumError
  | protocolStatusError (kind : StatusKind)
deriving DecidableEq, Repr

/-- What a response port carries: the 44-bit word `HRSP` and the `cause` sideband (R57). -/
structure Response where
  word : BitVec 44
  cause : Nat
deriving DecidableEq, Repr

/-- An event on the trace port (R58). -/
inductive TraceEvent where
  | onSend (rawFrame : Frame) (command type instanceOrBank : Byte) (value : Value)
  | onReceive (rawFrame : Frame) (value : Value)
deriving DecidableEq, Repr

/-- The transport's answer to a store (R31): on a failure the byte may have been taken or not. -/
inductive TxAnswer where
  | ok
  | fail (cause : Nat) (took : Bool)
deriving DecidableEq, Repr

/-- The transport's answer to a load (R33): `deliver` is `byte(b)` with `b` the first byte of `RXS`. -/
inductive RxAnswer where
  | deliver
  | fail (cause : Nat)
deriving DecidableEq, Repr

/-- What may happen between two steps of the block (R123), and `block`, the block's own turn. -/
inductive EnvEvent where
  /-- The block takes its step. -/
  | block
  /-- Caller `caller` holds the request word on its port (R100, R102). -/
  | present (caller : Nat) (word : BitVec 58)
  /-- Caller `caller` takes the outcome from its port (R102). -/
  | take (caller : Nat)
  /-- The transport adds a byte to `RXS` (R123). -/
  | arrive (b : Byte)
  /-- The transport settles how it answers one more store. -/
  | answerStore (a : TxAnswer)
  /-- The transport settles how it answers one more load. -/
  | answerLoad (a : RxAnswer)
  /-- The arbiter settles one more choice (R101). -/
  | choose (caller : Nat)
  /-- Reset (R170, R171). -/
  | reset
deriving DecidableEq, Repr

/-- Why the machine stops. Both are raised only in states that no run from reset reaches. -/
inductive Fault where
  /-- Raised by `WRITE` and `READ` when `CNT` is above 8: there is no tenth byte (R14, R17). Safe: the
  spec has no such state (log 12). -/
  | counterOutOfRange
  /-- Raised by the sequencer in `SYS` with `OP = EXEC`: R114 has no such transition. Safe: the spec has
  no such state (log 12). -/
  | noTransition
deriving DecidableEq, Repr

/-- Why an operation has no meaning. -/
inductive Refusal where
  /-- Raised by an arm of `exec` whose instruction has no meaning yet. Safe. -/
  | notModelled (mnemonic : String)
  /-- Raised by the grant of a request with `op = 11`: reserved, a model refuses it (R59, D24, U6). Safe (log 14). -/
  | reservedRequest
deriving DecidableEq, Repr

/-- The whole machine: the block, and the environment state that R22 says a model must carry.
Everything an observation quantifies over (R23) is data here: `arb`, `txAns`, `rxAns`, `env` (log 6). -/
structure State where
  /-- The parameters of the block, `ADDR` among them (R5, R20); no step changes them. -/
  cfg : Params
  /-- `CONN` (R10). -/
  conn : Bool
  /-- `LOCK` (R11). -/
  lock : Bool
  /-- `PHASE` (R13). -/
  phase : Phase
  /-- The registers that live inside one exchange (R14 to R19). -/
  regs : Regs
  /-- `TXS`, oldest byte first (R22, R30). -/
  txs : List Byte
  /-- `RXS`, the next byte first (R22, R24, R30). -/
  rxs : List Byte
  /-- `TRC`, oldest event first (R22, R113). -/
  trc : List TraceEvent
  /-- The pending requests, one at most for each caller (R22, R100, R102). -/
  req : List (Nat × BitVec 58)
  /-- The outcomes delivered and not yet taken, oldest first (R102, R112). -/
  rsp : List (Nat × Response)
  /-- MODEL: the arbiter's coming choices (R23, R101). -/
  arb : List Nat
  /-- MODEL: the transport's coming answers to stores (R23, R31). -/
  txAns : List TxAnswer
  /-- MODEL: the transport's coming answers to loads (R23, R33). -/
  rxAns : List RxAnswer
  /-- MODEL: what the environment does next (R123). -/
  env : List EnvEvent
  /-- MODEL: how many free values have been drawn (R8). -/
  draws : Nat
deriving DecidableEq, Repr

/-- The outcome of one step of this machine. -/
abbrev Res := Host.Outcome State Fault Refusal

/-- The registers as `State.reset` has them: the spec gives none of them a value (R27). DESIGN CHOICE,
unsafe: all zero (log 3). -/
def Regs.zero : Regs :=
  { cnt := 0, op := .exec, owner := 0, cmd := 0, type := 0, bank := 0, value := 0, st := 0, rv := 0,
    txf := ⟨0, 0, 0, 0, 0, 0, 0, 0, 0⟩, rxf := ⟨0, 0, 0, 0, 0, 0, 0, 0, 0⟩, acc := 0, ckok := false }

/-- The state after reset, for every value of the parameters (R27, R170). The streams and the inputs,
which are not the block's, are empty (DESIGN CHOICE, log 17). -/
def State.resetWith (p : Params) : State :=
  { cfg := p, conn := p.connAtReset, lock := false, phase := .idle, regs := Regs.zero,
    txs := [], rxs := [], trc := [], req := [], rsp := [],
    arb := [], txAns := [], rxAns := [], env := [], draws := 0 }

/-- The machine right after reset (R27, R170). -/
def State.reset : State := State.resetWith Config.params

end Sys2Proof.Machine
end

