-- ==== Sys2Proof/Machine/Flags.lean ====
section
/-! DEFINITION. The three flags of the block (R19). No operation writes a flag as a side effect. -/

namespace Sys2Proof.Machine

/-- The value `CK.CMP` gives `CKOK`: all eight bits compared (R74). -/
def ckokOf (acc checksum : Byte) : Bool := acc == checksum

/-- `CONN` written: by `ATTACH` and `DETACH` alone (R10, R120, R121). -/
def State.setConn (conn : Bool) (s : State) : State := { s with conn := conn }

/-- `LOCK` written: set by the grant, cleared by `Finish` and by reset (R11). -/
def State.setLock (lock : Bool) (s : State) : State := { s with lock := lock }

end Sys2Proof.Machine
end

