-- ==== Sys2Proof/Syntax.lean ====
section
/-! DEFINITION. The operations of the block: one constructor for each row of spec/opcode_table.json
(30_encoding.md R62). -/

namespace Sys2Proof

/-- The rows of the opcode table. Host operations are selected by `HREQ.op`, reply outcomes by the
checksum test and the status byte, internal operations by `PHASE` (R62). -/
inductive Instr where
  /-- `EXEC cmd, type, bank, value` (R116): one exchange. -/
  | exec (cmd type bank : Byte) (value : Value)
  /-- `ATTACH` (R120). -/
  | attach
  /-- `DETACH` (R121). -/
  | detach
  /-- `HREQ.op = 11` (R59). -/
  | hreqReserved
  /-- The command frame (R50); its checksum byte is determined by the other fields. -/
  | cmdf (cmd type bank : Byte) (value : Value)
  /-- A reply of status 100 with a good checksum (R90). -/
  | rplOk100 (replyAddr moduleAddr echo : Byte) (value : Value)
  /-- A reply of status 101 with a good checksum (R91). -/
  | rplOk101 (replyAddr moduleAddr echo : Byte) (value : Value)
  /-- A reply of status 1 with a good checksum (R92). -/
  | rplErr1 (replyAddr moduleAddr echo : Byte) (value : Value)
  /-- A reply of status 2 with a good checksum (R93). -/
  | rplErr2 (replyAddr moduleAddr echo : Byte) (value : Value)
  /-- A reply of status 3 with a good checksum (R94). -/
  | rplErr3 (replyAddr moduleAddr echo : Byte) (value : Value)
  /-- A reply of status 4 with a good checksum (R95). -/
  | rplErr4 (replyAddr moduleAddr echo : Byte) (value : Value)
  /-- A reply of status 5 with a good checksum (R96). -/
  | rplErr5 (replyAddr moduleAddr echo : Byte) (value : Value)
  /-- A reply of status 6 with a good checksum (R97). -/
  | rplErr6 (replyAddr moduleAddr echo : Byte) (value : Value)
  /-- A reply of any other status with a good checksum (R98). -/
  | rplUnknown (replyAddr moduleAddr status echo : Byte) (value : Value)
  /-- Nine bytes whose checksum test fails, whatever the status (R110). -/
  | rplBadck (replyAddr moduleAddr status echo : Byte) (value : Value) (checksum : Byte)
  /-- `CKSUM(s)` (R70). -/
  | cksum (span : List Byte)
  /-- `VALID(F)` (R77). -/
  | valid (frame : Frame)
  /-- `CK.CLR` (R71). -/
  | ckClr
  /-- `CK.ADD b` (R72). -/
  | ckAdd (b : Byte)
  /-- `CK.EMIT` (R73). -/
  | ckEmit
  /-- `CK.CMP` (R74). -/
  | ckCmp
  /-- `PACK32(v)` (R80). -/
  | pack32 (value : Value)
  /-- `UNPACK32(p)` (R81). -/
  | unpack32 (p0 p1 p2 p3 : Byte)
  /-- `ENCODE(cmd, type, bank, value)` (R82, R104). -/
  | encode (cmd type bank : Byte) (value : Value)
  /-- `DECODE(F)` (R84, R108). -/
  | decode (frame : Frame)
  /-- `CLASSIFY(status, value)` (R99, R111). -/
  | classify (status : Byte) (value : Value)
  /-- The pseudo-operation `ROTATE_RIGHT motor, velocity` (R131). -/
  | rotateRight (motor : Byte) (velocity : Value)
deriving DecidableEq, Repr

/-- The core operation a row stands for: the pseudo-operation is its expansion (R131), every other row itself. -/
def Instr.core : Instr → Instr
  | .rotateRight motor velocity => .exec 1 0 motor velocity
  | i => i

end Sys2Proof
end

