-- ==== Sys2Proof/WellFormed.lean ====
section
/-! DEFINITION. Which terms of `Instr` stand for something the spec has. Every operand of a host
operation is legal (R54); three rows carry a condition of their own. -/

namespace Sys2Proof

/-- A status byte with a row of its own: success (R90, R91) or a named error (R92 to R97). -/
def namedStatus (s : Byte) : Bool :=
  s == 100 || s == 101 || s == 1 || s == 2 || s == 3 || s == 4 || s == 5 || s == 6

/-- The condition of each row: an unknown status is none of the eight named ones (R98); a bad checksum
differs from the right one (R110); the accumulator takes a span of at most 8 bytes (R75). -/
def Instr.wellFormed : Instr → Bool
  | .exec _ _ _ _ => true
  | .attach => true
  | .detach => true
  | .hreqReserved => true
  | .cmdf _ _ _ _ => true
  | .rplOk100 _ _ _ _ => true
  | .rplOk101 _ _ _ _ => true
  | .rplErr1 _ _ _ _ => true
  | .rplErr2 _ _ _ _ => true
  | .rplErr3 _ _ _ _ => true
  | .rplErr4 _ _ _ _ => true
  | .rplErr5 _ _ _ _ => true
  | .rplErr6 _ _ _ _ => true
  | .rplUnknown _ _ status _ _ => !namedStatus status
  | .rplBadck r m st e v k => !(frameWith r m st e v k).valid
  | .cksum span => decide (span.length ≤ 8)
  | .valid _ => true
  | .ckClr => true
  | .ckAdd _ => true
  | .ckEmit => true
  | .ckCmp => true
  | .pack32 _ => true
  | .unpack32 _ _ _ _ => true
  | .encode _ _ _ _ => true
  | .decode _ => true
  | .classify _ _ => true
  | .rotateRight _ _ => true

end Sys2Proof
end

