-- ==== Sys2Proof/Decode.lean ====
section
/-! DEFINITION. From bits to operations and back: the host request word (R56), the command frame
(R50) and the reply frame (R51). The direction a frame travels is known to the machine (it reads
replies, it emits command frames), so it is part of what is decoded. -/

namespace Sys2Proof

/-- What a decoder is given: a request word on a host port, or bytes on one of the two streams (R21). -/
inductive Raw where
  /-- A word on a host request port. -/
  | request (word : Nat)
  /-- Bytes the block sends. -/
  | tx (bytes : List Byte)
  /-- Bytes the block receives. -/
  | rx (bytes : List Byte)
deriving DecidableEq, Repr

/-- Why bits are not an operation. -/
inductive DecodeError where
  /-- A request word has 58 bits (R56). -/
  | requestTooWide
  /-- A frame has nine bytes (R61). -/
  | wrongLength
  /-- Byte 0 of a command frame is `ADDR` (R50). -/
  | notTheAddress
  /-- Byte 8 of a command frame is the checksum of bytes 0 to 7 (R50). -/
  | badChecksum
deriving DecidableEq, Repr

/-- The field `op` of a request word, bits 57:56 (R56). -/
def requestOp (w : BitVec 58) : BitVec 2 := w.extractLsb' 56 2

/-- The field `cmd`, bits 55:48 (R56). -/
def requestCmd (w : BitVec 58) : Byte := w.extractLsb' 48 8

/-- The field `type`, bits 47:40 (R56). -/
def requestType (w : BitVec 58) : Byte := w.extractLsb' 40 8

/-- The field `bank`, bits 39:32 (R56). -/
def requestBank (w : BitVec 58) : Byte := w.extractLsb' 32 8

/-- The field `value`, bits 31:0 (R56). -/
def requestValue (w : BitVec 58) : Value := w.extractLsb' 0 32

/-- The operation a request word asks for (R56, R59): total, the reserved code is an operation that is refused. -/
def decodeRequest (w : BitVec 58) : Instr :=
  match (requestOp w).toNat with
  | 0 => .exec (requestCmd w) (requestType w) (requestBank w) (requestValue w)
  | 1 => .attach
  | 2 => .detach
  | _ => .hreqReserved

/-- The reply row for a status byte, the checksum test having passed (R53). -/
def replyRow (status replyAddr moduleAddr echo : Byte) (value : Value) : Instr :=
  match status.toNat with
  | 100 => .rplOk100 replyAddr moduleAddr echo value
  | 101 => .rplOk101 replyAddr moduleAddr echo value
  | 1 => .rplErr1 replyAddr moduleAddr echo value
  | 2 => .rplErr2 replyAddr moduleAddr echo value
  | 3 => .rplErr3 replyAddr moduleAddr echo value
  | 4 => .rplErr4 replyAddr moduleAddr echo value
  | 5 => .rplErr5 replyAddr moduleAddr echo value
  | 6 => .rplErr6 replyAddr moduleAddr echo value
  | _ => .rplUnknown replyAddr moduleAddr status echo value

/-- The reply row of nine received bytes: a bad checksum wins over every status (R62, R110, R151). -/
def decodeReply (f : Frame) : Instr :=
  if f.valid then replyRow f.b2 f.b0 f.b1 f.b3 f.value
  else .rplBadck f.b0 f.b1 f.b2 f.b3 f.value f.b8

/-- The command frame nine sent bytes are, for the address byte `addr` (R50, R87). -/
def decodeCommand (addr : Byte) (f : Frame) : Except DecodeError Instr :=
  if f.b0 ≠ addr then .error .notTheAddress
  else if f.valid then .ok (.cmdf f.b1 f.b2 f.b3 f.value)
  else .error .badChecksum

/-- The decoder, for the address byte `addr`: total on any bits, rejecting by name. -/
def decodeAt (addr : Byte) : Raw → Except DecodeError Instr
  | .request w => if w < 2 ^ 58 then .ok (decodeRequest (BitVec.ofNat 58 w)) else .error .requestTooWide
  | .tx bytes =>
    match Frame.ofBytes bytes with
    | some f => decodeCommand addr f
    | none => .error .wrongLength
  | .rx bytes =>
    match Frame.ofBytes bytes with
    | some f => .ok (decodeReply f)
    | none => .error .wrongLength

/-- The decoder of this hardware (R20). -/
def decode (r : Raw) : Except DecodeError Instr := decodeAt Config.address r

/-- A request word from its fields (R56). -/
def requestWord (op : BitVec 2) (cmd type bank : Byte) (value : Value) : BitVec 58 :=
  op ++ cmd ++ type ++ bank ++ value

/-- A reply on the wire from its fields, with a good checksum (R51). -/
def encodeReply (replyAddr moduleAddr status echo : Byte) (value : Value) : Raw :=
  .rx (sealedFrame replyAddr moduleAddr status echo value).bytes

/-- The encoder, for the address byte `addr`: none for the rows that are not encoded (R62). The ignored
bits of `ATTACH`, `DETACH` and the reserved code are written as zeros (R59); the pseudo-operation has
the word of its expansion (R131). -/
def encodeAt (addr : Byte) : Instr → Option Raw
  | .exec cmd type bank value => some (.request (requestWord 0 cmd type bank value).toNat)
  | .attach => some (.request (requestWord 1 0 0 0 0).toNat)
  | .detach => some (.request (requestWord 2 0 0 0 0).toNat)
  | .hreqReserved => some (.request (requestWord 3 0 0 0 0).toNat)
  | .cmdf cmd type bank value => some (.tx (encodeFrame addr cmd type bank value).bytes)
  | .rplOk100 r m e v => some (encodeReply r m 100 e v)
  | .rplOk101 r m e v => some (encodeReply r m 101 e v)
  | .rplErr1 r m e v => some (encodeReply r m 1 e v)
  | .rplErr2 r m e v => some (encodeReply r m 2 e v)
  | .rplErr3 r m e v => some (encodeReply r m 3 e v)
  | .rplErr4 r m e v => some (encodeReply r m 4 e v)
  | .rplErr5 r m e v => some (encodeReply r m 5 e v)
  | .rplErr6 r m e v => some (encodeReply r m 6 e v)
  | .rplUnknown r m status e v => some (encodeReply r m status e v)
  | .rplBadck r m status e v k => some (.rx (frameWith r m status e v k).bytes)
  | .cksum _ => none
  | .valid _ => none
  | .ckClr => none
  | .ckAdd _ => none
  | .ckEmit => none
  | .ckCmp => none
  | .pack32 _ => none
  | .unpack32 _ _ _ _ => none
  | .encode _ _ _ _ => none
  | .decode _ => none
  | .classify _ _ => none
  | .rotateRight motor velocity => some (.request (requestWord 0 1 0 motor velocity).toNat)

/-- The encoder of this hardware (R20). -/
def encode (i : Instr) : Option Raw := encodeAt Config.address i

/-- The operation whose bits, numbered as the opcode table numbers them, are `w`. A request word has 58
bits, 64 in whole bytes. A 72-bit word has byte 0 in bits 71 to 64 (R7); the number does not say which
way the frame travels, so a word that is a command frame is read as one and every other word as a reply
(DESIGN CHOICE, log 15). Any other width is no encoded row. -/
def decodeTableWord (nbits w : Nat) : Option Instr :=
  if nbits = 58 ∨ nbits = 64 then (decode (.request w)).toOption
  else if nbits = 72 ∧ w < 2 ^ 72 then
    let bytes := (Frame.ofWord (BitVec.ofNat 72 w)).bytes
    match decode (.tx bytes) with
    | .ok i => some i
    | .error _ => (decode (.rx bytes)).toOption
  else none

end Sys2Proof
end

