-- ==== Sys2Proof/Machine/Operands.lean ====
section
/-! DEFINITION. The operands of a host operation as they stand in a request word (R15, R56), the
classification of the status byte (42_classify.md), and the response word (R57). -/

namespace Sys2Proof.Machine

/-- The four operands of `EXEC` (R15, R52). -/
structure HostOperands where
  cmd : Byte
  type : Byte
  bank : Byte
  value : Value
deriving DecidableEq, Repr

/-- The operand fields of a request word (R56). The grant latches them for every operation, `ATTACH` and
`DETACH` too, where nothing reads them (R15, R101; log 19). -/
def requestOperands (w : BitVec 58) : HostOperands :=
  { cmd := requestCmd w, type := requestType w, bank := requestBank w, value := requestValue w }

/-- `CLASSIFY(status, value)` (R90 to R99). -/
def classifyStatus (status : Byte) (value : Value) : OpOutcome :=
  match status.toNat with
  | 100 => .ok value
  | 101 => .ok value
  | 1 => .protocolStatusError .checksumMismatchReported
  | 2 => .protocolStatusError .invalidCommand
  | 3 => .protocolStatusError .wrongType
  | 4 => .protocolStatusError .invalidType
  | 5 => .protocolStatusError .configurationLocked
  | 6 => .protocolStatusError .commandNotAvailable
  | _ => .protocolStatusError (.unknownStatus status)

/-- The raw status byte of a kind (R57, R144, D27). -/
def StatusKind.code : StatusKind → Byte
  | .checksumMismatchReported => 1
  | .invalidCommand => 2
  | .wrongType => 3
  | .invalidType => 4
  | .configurationLocked => 5
  | .commandNotAvailable => 6
  | .unknownStatus code => code

/-- The field `kind`, bits 43:41 (R57, R140). -/
def OpOutcome.kindField : OpOutcome → BitVec 3
  | .ok _ => 0
  | .notConnected => 1
  | .transportError _ _ => 2
  | .checksumError => 3
  | .protocolStatusError _ => 4

/-- The field `phase`, bit 40 (R57). -/
def OpOutcome.phaseField : OpOutcome → BitVec 1
  | .transportError .read _ => 1
  | _ => 0

/-- The field `code`, bits 39:32 (R57). -/
def OpOutcome.codeField : OpOutcome → Byte
  | .protocolStatusError kind => kind.code
  | _ => 0

/-- The field `value`, bits 31:0: 0 with every error (R57, D10). -/
def OpOutcome.valueField : OpOutcome → Value
  | .ok value => value
  | _ => 0

/-- The sideband `cause`: the `causeW` bits of the transport's code (R57; log 11). -/
def OpOutcome.causeField (causeW : Nat) : OpOutcome → Nat
  | .transportError _ cause => cause % 2 ^ causeW
  | _ => 0

/-- The response of an outcome (R57). -/
def OpOutcome.response (causeW : Nat) (o : OpOutcome) : Response :=
  { word := o.kindField ++ o.phaseField ++ o.codeField ++ o.valueField, cause := o.causeField causeW }

/-- The request pending on a caller's port (R22, R100). -/
def State.requestOf (s : State) (caller : Nat) : Option (BitVec 58) :=
  (s.req.find? (fun r => r.1 == caller)).map Prod.snd

/-- The request the arbiter's next choice grants, with its caller: none while it has made no choice, or
has chosen a caller with nothing pending (R101; log 8). -/
def State.granted (s : State) : Option (Nat × BitVec 58) :=
  match s.arb with
  | [] => none
  | caller :: _ => (s.requestOf caller).map (fun w => (caller, w))

end Sys2Proof.Machine
end

