-- ==== Sys2Proof/Machine/Ops.lean ====
section
/-! DEFINITION. The named operations every meaning is built from: the accumulator (40_checksum.md), the
store and the load (R31, R33), the trace port (R113), `Finish` and `raise` (R112), the draw (R8), and
what the environment does (R123). -/

namespace Sys2Proof.Machine

/-! The accumulator. -/

/-- `CK.CLR` (R71). -/
def Regs.ckClr (r : Regs) : Regs := { r with acc := 0, cnt := 0 }

/-- `CK.ADD b` (R72): the carry is dropped. -/
def Regs.ckAdd (r : Regs) (b : Byte) : Regs := { r with acc := r.acc + b, cnt := r.cnt + 1 }

/-- `CK.EMIT` (R73). -/
def Regs.ckEmit (r : Regs) : Regs := { r with txf := { r.txf with b8 := r.acc } }

/-- `CK.CMP` against a given checksum byte (R74). -/
def Regs.ckCmp (r : Regs) (checksum : Byte) : Regs := { r with ckok := ckokOf r.acc checksum }

/-- `CK.CLR` and then `CK.ADD` of each byte in turn (R75). -/
def Regs.ckRun (r : Regs) (span : List Byte) : Regs := span.foldl Regs.ckAdd r.ckClr

/-! The value field. -/

/-- `TXF[4..8) <- PACK32(v)` (R80, R104). -/
def Regs.putValue (r : Regs) (v : Value) : Regs :=
  let p := packValue v
  { r with txf := { r.txf with b4 := p.1, b5 := p.2.1, b6 := p.2.2.1, b7 := p.2.2.2 } }

/-- `TXF[0..4)` written (R104). -/
def Regs.putHeader (r : Regs) (addr cmd type bank : Byte) : Regs :=
  { r with txf := { r.txf with b0 := addr, b1 := cmd, b2 := type, b3 := bank } }

/-- The register writes of `ENCODE` (R104): the span, then the accumulation, then the checksum byte. -/
def Regs.encode (r : Regs) (addr cmd type bank : Byte) (value : Value) : Regs :=
  let r1 := (r.putHeader addr cmd type bank).putValue value
  (r1.ckRun r1.txf.span).ckEmit

/-- The register writes of `DECODE` for the frame `f` (R108): `ST` and `RV` are latched whether or not
the checksum is good. -/
def Regs.decode (r : Regs) (f : Frame) : Regs :=
  { (r.ckRun f.span).ckCmp f.b8 with st := f.b2, rv := f.value }

/-! The draw, the trace port and `Finish`. -/

/-- `draw int32`: the next free value, and the state with the counter moved on (R8). -/
def State.draw (s : State) : Value × State := (Config.drawInt32 s.draws, { s with draws := s.draws + 1 })

/-- The transient registers hold unspecified values from here on (R12, R27): free values (log 4). -/
def State.forget (s : State) : State := { s with regs := Config.deadRegs s.draws, draws := s.draws + 1 }

/-- `Trace(e)`: completes at once; dropped when no sink is connected (R113). -/
def State.trace (e : TraceEvent) (s : State) : State :=
  { s with trc := if s.cfg.tracePresent then s.trc ++ [e] else s.trc }

/-- The response word of `o` delivered to caller `x[OWNER]` (R57, R112). -/
def State.deliver (o : OpOutcome) (s : State) : State :=
  { s with rsp := s.rsp ++ [(s.regs.owner, o.response s.cfg.causeW)] }

/-- `Finish(o)`, the one exit of every host operation (R112): the response, `LOCK <- 0`, `PHASE <- IDLE`,
and the transient registers forgotten (R12). -/
def State.finish (o : OpOutcome) (s : State) : State :=
  { ((s.deliver o).setLock false).forget with phase := .idle }

/-- `raise E(info)` is `Finish(E(info))` (R8, R112, R152): the one way an error is taken. -/
def State.raise (e : OpOutcome) (s : State) : State := s.finish e

/-! The transport. -/

/-- How a store or a load ends: no answer yet, an answer with what it brings, or a failure with its code. -/
inductive IoResult (α : Type) where
  | waiting
  | done (a : α) (s : State)
  | failed (cause : Nat) (s : State)

/-- `MemWrite(TX, 1, b)` (R31). -/
def State.memWrite (b : Byte) (s : State) : IoResult Unit :=
  match s.txAns with
  | [] => .waiting
  | .ok :: rest => .done () { s with txAns := rest, txs := s.txs ++ [b] }
  | .fail cause took :: rest => .failed cause { s with txAns := rest, txs := if took then s.txs ++ [b] else s.txs }

/-- `MemRead(RX, 1)` (R33). A byte the transport does not hold yet is not delivered: the load waits. -/
def State.memRead (s : State) : IoResult Byte :=
  match s.rxAns with
  | [] => .waiting
  | .fail cause :: rest => .failed cause { s with rxAns := rest }
  | .deliver :: rest =>
    match s.rxs with
    | [] => .waiting
    | b :: bs => .done b { s with rxAns := rest, rxs := bs }

/-! The grant. -/

/-- The grant of a request (R101): enabled while `LOCK = 0` and the arbiter has chosen a pending request;
otherwise the caller waits. `operands` says what the operand latches take from the request word. -/
def State.grant (op : OpCode) (operands : BitVec 58 → HostOperands) (s : State) : State :=
  if s.lock then s else
  match s.granted with
  | none => s
  | some (caller, w) =>
    { s.setLock true with
      arb := s.arb.tail
      req := s.req.filter (fun r => r.1 != caller)
      regs := { s.regs with owner := caller, op := op, cmd := (operands w).cmd, type := (operands w).type,
                            bank := (operands w).bank, value := (operands w).value }
      phase := match op with
        | .exec => .chkconn
        | .attach => .sys
        | .detach => .sys }

/-! The environment. -/

/-- Caller `caller` may present a request: it is one of the callers and has nothing outstanding, neither
pending, nor in flight, nor an outcome it has not taken (R102). -/
def State.mayPresent (s : State) (caller : Nat) : Bool :=
  decide (caller < s.cfg.nCallers) && !(s.req.any (fun r => r.1 == caller)) &&
    !(s.rsp.any (fun r => r.1 == caller)) && !(s.lock && s.regs.owner == caller)

/-- Reset (R170, R171): the exchange in flight is abandoned without an outcome, pending requests are not
remembered, the streams and the trace log are what they were, the transient registers are unspecified. -/
def State.resetEvent (s : State) : State :=
  { s.forget with conn := s.cfg.connAtReset, lock := false, phase := .idle, req := [] }

/-- What an event of the environment does (R102, R123, R170). -/
def State.environment (e : EnvEvent) (s : State) : State :=
  match e with
  | .block => s
  | .present caller word => if s.mayPresent caller then { s with req := s.req ++ [(caller, word)] } else s
  | .take caller => { s with rsp := s.rsp.filter (fun r => r.1 != caller) }
  | .arrive b => { s with rxs := s.rxs ++ [b] }
  | .answerStore a => { s with txAns := s.txAns ++ [a] }
  | .answerLoad a => { s with rxAns := s.rxAns ++ [a] }
  | .choose caller => { s with arb := s.arb ++ [caller] }
  | .reset => s.resetEvent

end Sys2Proof.Machine
end

