-- ==== Sys2Proof/Machine/Executor.lean ====
section
/-! DEFINITION. The phases of `EXEC`, one shared operation for each (43_executor.md R103 to R111), and
`EXEC` as the sequence of them (R114). The operands are those of the exchange in flight. -/

namespace Sys2Proof.Machine

/-- `CHKCONN`, step 2 (R103). -/
def checkConn (s : State) : Res :=
  if s.conn then .next { s with phase := .encode } else .next (s.raise .notConnected)

/-- `ENCODE`, step 3, first half (R104). -/
def encodePhase (cmd type bank : Byte) (value : Value) (s : State) : Res :=
  .next { s with regs := s.regs.encode s.cfg.addr cmd type bank value, phase := .tsend }

/-- `TSEND`, step 3, second half (R105): the event comes before the first byte is written (C3). -/
def traceSend (cmd type bank : Byte) (value : Value) (s : State) : Res :=
  .next { s.trace (.onSend s.regs.txf cmd type bank value) with regs := { s.regs with cnt := 0 }, phase := .write }

/-- One store of `WRITE`, step 4 (R106): byte `CNT` of the frame is offered. -/
def writeByte (frame : Frame) (s : State) : Res :=
  if 9 ≤ s.regs.cnt.toNat then .fault .counterOutOfRange else
  match s.memWrite (frame.get s.regs.cnt.toNat) with
  | .waiting => .next s
  | .done _ s1 =>
    if s1.regs.cnt.toNat = 8 then .next { s1 with regs := { s1.regs with cnt := 0 }, phase := .read }
    else .next { s1 with regs := { s1.regs with cnt := s1.regs.cnt + 1 }, phase := .write }
  | .failed cause s1 => .next (s1.raise (.transportError .write cause))

/-- One load of `READ`, step 5 (R107): the byte is stored in `RXF[CNT]`; the ninth does not count on (log 20). -/
def readByte (s : State) : Res :=
  if 9 ≤ s.regs.cnt.toNat then .fault .counterOutOfRange else
  match s.memRead with
  | .waiting => .next s
  | .done b s1 =>
    if s1.regs.cnt.toNat = 8 then
      .next { s1 with regs := { s1.regs with rxf := s1.regs.rxf.set 8 b }, phase := .decode }
    else
      .next { s1 with regs := { s1.regs with rxf := s1.regs.rxf.set s1.regs.cnt.toNat b, cnt := s1.regs.cnt + 1 }
                      phase := .read }
  | .failed cause s1 => .next (s1.raise (.transportError .read cause))

/-- `DECODE`, step 6, first half (R108), of the frame `f`. -/
def decodePhase (f : Frame) (s : State) : Res :=
  .next { s with regs := s.regs.decode f, phase := .trecv }

/-- `TRECV`, step 6, second half (R109): with a bad checksum the value of the event is drawn (C9). -/
def traceReceive (s : State) : Res :=
  if s.regs.ckok then
    .next { s.trace (.onReceive s.regs.rxf s.regs.rv) with phase := .classify }
  else
    .next { s.draw.2.trace (.onReceive s.regs.rxf s.draw.1) with phase := .classify }

/-- `CLASSIFY`, steps 7 and 8 (R110, R111): the checksum test first. -/
def classifyPhase (s : State) : Res :=
  if s.regs.ckok then .next (s.finish (classifyStatus s.regs.st s.regs.rv)) else .next (s.raise .checksumError)

/-- `EXEC cmd, type, bank, value`, one action at a time: the grant in `IDLE` (R101), then the action of the
phase the exchange is in (R103 to R111, R114). In `SYS` another operation holds the lock: it waits. -/
def exchange (cmd type bank : Byte) (value : Value) (s : State) : Res :=
  match s.phase with
  | .idle => .next (s.grant .exec (fun _ => ⟨cmd, type, bank, value⟩))
  | .sys => .next s
  | .chkconn => checkConn s
  | .encode => encodePhase cmd type bank value s
  | .tsend => traceSend cmd type bank value s
  | .write => writeByte s.regs.txf s
  | .read => readByte s
  | .decode => decodePhase s.regs.rxf s
  | .trecv => traceReceive s
  | .classify => classifyPhase s

/-- `ATTACH` or `DETACH`: the grant in `IDLE` (R101); in `SYS`, holding the lock, `CONN` is written and the
answer is `Ok(0)` (R120, R121); in every other case another operation holds the lock and it waits. -/
def handleRequest (op : OpCode) (conn : Bool) (s : State) : Res :=
  match s.phase with
  | .idle => .next (s.grant op requestOperands)
  | .sys => if s.regs.op = op then .next ((s.setConn conn).finish (.ok 0)) else .next s
  | _ => .next s

end Sys2Proof.Machine
end

