-- ==== Sys2Proof/Machine/FrameOps.lean ====
section
/-! DEFINITION. The meanings of the two frame formats: the emitted command frame (R50, R106) and the
reply outcomes (R90 to R98, R110). The bytes of a reply other than the status and the value are not
looked at (R55). -/

namespace Sys2Proof.Machine

/-- `CMDF`: the block emits the frame `ENCODE(cmd, type, bank, value)`, here its byte `CNT` (R50, R82, R106). -/
def execCmdf (cmd type bank : Byte) (value : Value) (s : State) : Res :=
  writeByte (encodeFrame s.cfg.addr cmd type bank value) s

/-- Status 100: `Ok(value)` (R90). -/
def execRplOk100 (_replyAddr _moduleAddr _echo : Byte) (value : Value) (s : State) : Res :=
  .next (s.finish (.ok value))

/-- Status 101: `Ok(value)` (R91). -/
def execRplOk101 (_replyAddr _moduleAddr _echo : Byte) (value : Value) (s : State) : Res :=
  .next (s.finish (.ok value))

/-- Status 1 (R92): the value field is ignored. -/
def execRplErr1 (_replyAddr _moduleAddr _echo : Byte) (_value : Value) (s : State) : Res :=
  .next (s.raise (.protocolStatusError .checksumMismatchReported))

/-- Status 2 (R93). -/
def execRplErr2 (_replyAddr _moduleAddr _echo : Byte) (_value : Value) (s : State) : Res :=
  .next (s.raise (.protocolStatusError .invalidCommand))

/-- Status 3 (R94). -/
def execRplErr3 (_replyAddr _moduleAddr _echo : Byte) (_value : Value) (s : State) : Res :=
  .next (s.raise (.protocolStatusError .wrongType))

/-- Status 4 (R95). -/
def execRplErr4 (_replyAddr _moduleAddr _echo : Byte) (_value : Value) (s : State) : Res :=
  .next (s.raise (.protocolStatusError .invalidType))

/-- Status 5 (R96). -/
def execRplErr5 (_replyAddr _moduleAddr _echo : Byte) (_value : Value) (s : State) : Res :=
  .next (s.raise (.protocolStatusError .configurationLocked))

/-- Status 6 (R97). -/
def execRplErr6 (_replyAddr _moduleAddr _echo : Byte) (_value : Value) (s : State) : Res :=
  .next (s.raise (.protocolStatusError .commandNotAvailable))

/-- Every other status (R98): the raw code is kept. -/
def execRplUnknown (_replyAddr _moduleAddr status _echo : Byte) (_value : Value) (s : State) : Res :=
  .next (s.raise (.protocolStatusError (.unknownStatus status)))

/-- A failed checksum test, whatever the status (R110, R143). -/
def execRplBadck (_replyAddr _moduleAddr _status _echo : Byte) (_value : Value) (_checksum : Byte) (s : State) : Res :=
  .next (s.raise .checksumError)

end Sys2Proof.Machine
end

