-- ==== Sys2Proof/Machine/HostOps.lean ====
section
/-! DEFINITION. The meanings of the host operations and of the pseudo-operation (43_executor.md,
44_named_operations.md). -/

namespace Sys2Proof.Machine

/-- `EXEC` (R116, R101 to R111): the action of the phase it is in. -/
def execExec (cmd type bank : Byte) (value : Value) (s : State) : Res := exchange cmd type bank value s

/-- `ATTACH` (R101, R120). -/
def execAttach (s : State) : Res := handleRequest .attach true s

/-- `DETACH` (R101, R121). -/
def execDetach (s : State) : Res := handleRequest .detach false s

/-- `HREQ.op = 11`: reserved, refused (R59, D24, U6; log 14). -/
def execHreqReserved (_s : State) : Res := .refused .reservedRequest

/-- `ROTATE_RIGHT motor, velocity` is `EXEC 1, 0, motor, velocity` (R130, R131; log 21). -/
def execRotateRight (motor : Byte) (velocity : Value) (s : State) : Res := exchange 1 0 motor velocity s

end Sys2Proof.Machine
end

