-- ==== Sys2Proof/Machine/InternalOps.lean ====
section
/-! DEFINITION. The meanings of the internal operations (40_checksum.md, 41_codec.md, 42_classify.md).
A pure function puts its result into the registers that the step rules compute it into (R75, R104,
R108; log 9). -/

namespace Sys2Proof.Machine

/-- `CKSUM(s)`: `CK.CLR` and a `CK.ADD` for each byte leave the result in `ACC` (R70, R75). -/
def execCksum (span : List Byte) (s : State) : Res := .next { s with regs := s.regs.ckRun span }

/-- `VALID(F)`: the accumulator over `F[0..8)`, and `CKOK <- VALID(F)` (R77, R108). -/
def execValid (f : Frame) (s : State) : Res := .next { s with regs := (s.regs.ckRun f.span).ckCmp f.b8 }

/-- `CK.CLR` (R71). -/
def execCkClr (s : State) : Res := .next { s with regs := s.regs.ckClr }

/-- `CK.ADD b` (R72). -/
def execCkAdd (b : Byte) (s : State) : Res := .next { s with regs := s.regs.ckAdd b }

/-- `CK.EMIT` (R73). -/
def execCkEmit (s : State) : Res := .next { s with regs := s.regs.ckEmit }

/-- `CK.CMP`: `CKOK <- (ACC = RXF[8])` (R74). -/
def execCkCmp (s : State) : Res := .next { s with regs := s.regs.ckCmp s.regs.rxf.b8 }

/-- `PACK32(v)` into `TXF[4..8)` (R80, R104). -/
def execPack32 (v : Value) (s : State) : Res := .next { s with regs := s.regs.putValue v }

/-- `UNPACK32(p)` into `RV` (R81, R108). -/
def execUnpack32 (p0 p1 p2 p3 : Byte) (s : State) : Res :=
  .next { s with regs := { s.regs with rv := unpackValue p0 p1 p2 p3 } }

/-- `ENCODE(cmd, type, bank, value)` into `TXF`, and on to `TSEND` (R82, R104). -/
def execEncode (cmd type bank : Byte) (value : Value) (s : State) : Res := encodePhase cmd type bank value s

/-- `DECODE(F)` into `CKOK`, `ST` and `RV`, and on to `TRECV` (R84, R108). -/
def execDecode (f : Frame) (s : State) : Res := decodePhase f s

/-- `CLASSIFY(status, value)`: its outcome ends the exchange (R99, R111). -/
def execClassify (status : Byte) (value : Value) (s : State) : Res := .next (s.finish (classifyStatus status value))

end Sys2Proof.Machine
end

