-- ==== Sys2Proof/Machine/Dispatch.lean ====
section
/-! DEFINITION. One arm for each row of the opcode table. -/

namespace Sys2Proof.Machine

def exec (i : Instr) (s : State) : Host.Outcome State Fault Refusal :=
  match i with
  | .exec cmd type bank value => Sys2Proof.Machine.execExec cmd type bank value s
  | .attach => Sys2Proof.Machine.execAttach s
  | .detach => Sys2Proof.Machine.execDetach s
  | .hreqReserved => Sys2Proof.Machine.execHreqReserved s
  | .cmdf cmd type bank value => Sys2Proof.Machine.execCmdf cmd type bank value s
  | .rplOk100 r m e v => Sys2Proof.Machine.execRplOk100 r m e v s
  | .rplOk101 r m e v => Sys2Proof.Machine.execRplOk101 r m e v s
  | .rplErr1 r m e v => Sys2Proof.Machine.execRplErr1 r m e v s
  | .rplErr2 r m e v => Sys2Proof.Machine.execRplErr2 r m e v s
  | .rplErr3 r m e v => Sys2Proof.Machine.execRplErr3 r m e v s
  | .rplErr4 r m e v => Sys2Proof.Machine.execRplErr4 r m e v s
  | .rplErr5 r m e v => Sys2Proof.Machine.execRplErr5 r m e v s
  | .rplErr6 r m e v => Sys2Proof.Machine.execRplErr6 r m e v s
  | .rplUnknown r m st e v => Sys2Proof.Machine.execRplUnknown r m st e v s
  | .rplBadck r m st e v k => Sys2Proof.Machine.execRplBadck r m st e v k s
  | .cksum span => Sys2Proof.Machine.execCksum span s
  | .valid f => Sys2Proof.Machine.execValid f s
  | .ckClr => Sys2Proof.Machine.execCkClr s
  | .ckAdd b => Sys2Proof.Machine.execCkAdd b s
  | .ckEmit => Sys2Proof.Machine.execCkEmit s
  | .ckCmp => Sys2Proof.Machine.execCkCmp s
  | .pack32 v => Sys2Proof.Machine.execPack32 v s
  | .unpack32 a b c d => Sys2Proof.Machine.execUnpack32 a b c d s
  | .encode cmd type bank value => Sys2Proof.Machine.execEncode cmd type bank value s
  | .decode f => Sys2Proof.Machine.execDecode f s
  | .classify status value => Sys2Proof.Machine.execClassify status value s
  | .rotateRight motor velocity => Sys2Proof.Machine.execRotateRight motor velocity s

end Sys2Proof.Machine
end

