-- ==== Sys2Proof/Machine/Fetch.lean ====
section
/-! DEFINITION. What the block does next. It fetches no program: `PHASE` selects the operation (R13, R62),
from the request word granted, the operand latches, the frame buffers or the decode results. Also how a
word is laid where the next step finds it. -/

namespace Sys2Proof.Machine

/-- What `PHASE` selects. -/
inductive Selection where
  /-- Nothing to do: no choice of the arbiter in `IDLE` (R100). -/
  | wait
  /-- The arbiter's next choice is a caller with nothing pending: it grants nothing and is dropped (log 8). -/
  | dropChoice
  /-- No transition of R114. -/
  | stuck
  /-- The operation to run. -/
  | run (i : Instr)
deriving DecidableEq, Repr

/-- The exchange in flight: `EXEC` with the latched operands (R15). -/
def State.inFlight (s : State) : Instr := .exec s.regs.cmd s.regs.type s.regs.bank s.regs.value

/-- The reply outcome `CKOK` and `ST` select, with the value latched in `RV` (R62, R110, R111). -/
def State.replySelected (s : State) : Instr :=
  if s.regs.ckok then replyRow s.regs.st s.regs.rxf.b0 s.regs.rxf.b1 s.regs.rxf.b3 s.regs.rv
  else .rplBadck s.regs.rxf.b0 s.regs.rxf.b1 s.regs.rxf.b2 s.regs.rxf.b3 s.regs.rxf.value s.regs.rxf.b8

/-- The frame being emitted: `TXF` read as a command frame (R62, R87); `ENCODE` leaves nothing else in it. -/
def State.emitted (s : State) : Instr :=
  match decodeCommand s.cfg.addr s.regs.txf with
  | .ok i => i
  | .error _ => s.inFlight

/-- The operation `PHASE` selects (R13, R62, R114). -/
def State.selected (s : State) : Selection :=
  match s.phase with
  | .idle =>
    if s.lock || s.arb.isEmpty then .wait else
    match s.granted with
    | none => .dropChoice
    | some (_, w) => .run (decodeRequest w)
  | .sys =>
    match s.regs.op with
    | .attach => .run .attach
    | .detach => .run .detach
    | .exec => .stuck
  | .chkconn => .run s.inFlight
  | .encode => .run (.encode s.regs.cmd s.regs.type s.regs.bank s.regs.value)
  | .tsend => .run s.inFlight
  | .write => .run s.emitted
  | .read => .run s.inFlight
  | .decode => .run (.decode s.regs.rxf)
  | .trecv => .run s.inFlight
  | .classify => .run s.replySelected

/-- The state in which request word `w` is the one the arbiter grants next: caller 0 holds it (R56, R100, R101). -/
def State.withRequest (w : BitVec 58) (s : State) : State :=
  { s with
    env := .block :: s.env
    lock := false
    phase := .idle
    req := (0, w) :: s.req.filter (fun r => r.1 != 0)
    arb := 0 :: s.arb }

/-- The state in which the block is about to send the first byte of the command frame `f`, and the
transport takes it (R104 to R106). -/
def State.withCommand (f : Frame) (s : State) : State :=
  { s with
    env := .block :: s.env
    conn := true
    lock := true
    phase := .write
    txAns := .ok :: s.txAns
    regs := { s.regs with op := .exec, cmd := f.b1, type := f.b2, bank := f.b3, value := f.value, txf := f, cnt := 0 } }

/-- The state in which the block has read and decoded the reply `f` and is about to classify it (R107 to R109). -/
def State.withReply (f : Frame) (s : State) : State :=
  { s with
    env := .block :: s.env
    conn := true
    lock := true
    phase := .classify
    regs := { (s.regs.decode f) with op := .exec, rxf := f } }

/-- The state in which the operation `decodeTableWord nbits w` reads is the next the block runs (log 16). -/
def State.placeWord (s : State) (nbits w : Nat) : State :=
  if nbits = 72 then
    let f := Frame.ofWord (BitVec.ofNat 72 w)
    match decodeCommand s.cfg.addr f with
    | .ok _ => s.withCommand f
    | .error _ => s.withReply f
  else s.withRequest (BitVec.ofNat 58 w)

end Sys2Proof.Machine
end

