-- ==== Sys2Proof/Machine/Step.lean ====
section
/-! DEFINITION. One step of the machine: an event of the environment, or one action of the block. -/

namespace Sys2Proof.Machine

/-- One action of the block: the operation `PHASE` selects (R13, R114). -/
def blockStep (s : State) : Host.Outcome State Fault Refusal :=
  match s.selected with
  | .wait => .next s
  | .dropChoice => .next { s with arb := s.arb.tail }
  | .stuck => .fault .noTransition
  | .run i => exec i s

/-- One step: the next entry of `env` says which agent moves (R123); with none left, the block does. -/
def step (s : State) : Host.Outcome State Fault Refusal :=
  match s.env with
  | [] => blockStep s
  | .block :: rest => blockStep { s with env := rest }
  | e :: rest => .next (({ s with env := rest } : State).environment e)

/-- The state whose next step runs the operation with these bits (log 16). -/
def State.withFetchWord (s : State) (nbits w : Nat) : State := s.placeWord nbits w

end Sys2Proof.Machine
end

