-- ==== Sys2Proof/Safety.lean ====
section
/-! DEFINITION. What claims about the machine are stated in: the invariant of the block, the state an
ended operation leaves, the exchange as one function of the oracle's answers (R116), and the segments of
the TX stream (R45). -/

namespace Sys2Proof.Machine

/-- The phases of an exchange past the grant (R13): an `EXEC` holds the lock. -/
def Phase.inExchange : Phase → Bool
  | .idle => false
  | .sys => false
  | _ => true

/-- The phases after the `CONN` test (R103). -/
def Phase.connected : Phase → Bool
  | .idle => false
  | .sys => false
  | .chkconn => false
  | _ => true

/-- The phases in which `TXF` holds the command frame (R104). -/
def Phase.framed : Phase → Bool
  | .tsend => true
  | .write => true
  | .read => true
  | .decode => true
  | .trecv => true
  | .classify => true
  | _ => false

/-- The phases in which the whole command frame has been sent (R45). -/
def Phase.sent : Phase → Bool
  | .read => true
  | .decode => true
  | .trecv => true
  | .classify => true
  | _ => false

/-- The two phases that move bytes (R106, R107). -/
def Phase.transfer : Phase → Bool
  | .write => true
  | .read => true
  | _ => false

/-- The two phases after `DECODE` (R108). -/
def Phase.decoded : Phase → Bool
  | .trecv => true
  | .classify => true
  | _ => false

/-- The command frame of the exchange in flight (R82). -/
def State.frame (s : State) : Frame :=
  encodeFrame s.cfg.addr s.regs.cmd s.regs.type s.regs.bank s.regs.value

/-- The callers that have an operation outstanding: pending, answered and not taken, or in flight (R102). -/
def State.outstanding (s : State) : List Nat :=
  s.req.map Prod.fst ++ s.rsp.map Prod.fst ++ (if s.lock then [s.regs.owner] else [])

/-- What holds of the block between any two steps. -/
structure State.Inv (s : State) : Prop where
  /-- `LOCK = 0` if and only if `PHASE = IDLE` (R11). -/
  lock_iff : s.lock = false ↔ s.phase = .idle
  /-- `SYS` is for `ATTACH` and `DETACH` (R101). -/
  sys_op : s.phase = .sys → s.regs.op ≠ .exec
  /-- Every later phase is for `EXEC` (R101). -/
  exchange_op : s.phase.inExchange = true → s.regs.op = .exec
  /-- `CONN = 1` for the rest of an exchange (R122). -/
  conn_held : s.phase.connected = true → s.conn = true
  /-- `TXF` holds `ENCODE` of the operands (R104). -/
  frame_built : s.phase.framed = true → s.regs.txf = s.frame
  /-- `CNT` is the index of a byte of the frame (R14). -/
  cnt_range : s.phase.transfer = true → s.regs.cnt.toNat ≤ 8
  /-- `CKOK`, `ST` and `RV` are the decode of `RXF` (R108). -/
  decoded : s.phase.decoded = true →
    s.regs.ckok = s.regs.rxf.valid ∧ s.regs.st = s.regs.rxf.b2 ∧ s.regs.rv = s.regs.rxf.value
  /-- In `WRITE`, `TXS` ends with the `CNT` bytes of the frame accepted so far (R14, R106). -/
  sent_part : s.phase = .write → ∃ before, s.txs = before ++ s.regs.txf.bytes.take s.regs.cnt.toNat
  /-- From `READ` on, `TXS` ends with the whole frame (R45). -/
  sent_whole : s.phase.sent = true → ∃ before, s.txs = before ++ s.regs.txf.bytes
  /-- A caller has at most one operation outstanding (R102). -/
  one_each : s.outstanding.Nodup
  /-- Only callers that exist have one (R5). -/
  callers : ∀ c ∈ s.outstanding, c < s.cfg.nCallers

/-- `t` is what an operation of `s` that ends with outcome `o` leaves (R112): the response delivered to the
owner, the lock free, the block idle, everything else but the transient registers as it was. -/
structure Ended (o : OpOutcome) (s t : State) : Prop where
  delivered : t.rsp = s.rsp ++ [(s.regs.owner, o.response s.cfg.causeW)]
  lock : t.lock = false
  phase : t.phase = .idle
  conn : t.conn = s.conn
  cfg : t.cfg = s.cfg
  txs : t.txs = s.txs
  rxs : t.rxs = s.rxs
  trc : t.trc = s.trc
  req : t.req = s.req
  arb : t.arb = s.arb
  txAns : t.txAns = s.txAns
  rxAns : t.rxAns = s.rxAns
  env : t.env = s.env

/-- Two states that differ in the transient registers at most (R12). -/
def SameButRegs (s t : State) : Prop := { s with regs := t.regs } = t

/-- Operations run one after another, stopping at the first fault or refusal. -/
def execSeq : List Instr → State → Res
  | [], s => .next s
  | i :: rest, s =>
    match exec i s with
    | .next t => execSeq rest t
    | .fault f => .fault f
    | .refused r => .refused r

/-- `n` steps of the machine, stopping at the first fault or refusal. -/
def runSteps : Nat → State → Res
  | 0, s => .next s
  | n + 1, s =>
    match step s with
    | .next t => runSteps n t
    | .fault f => .fault f
    | .refused r => .refused r

/-! The premises of liveness claims (R5, R189): none is assumed by any rule (D7, D21; log 26). -/

/-- Some number of steps takes `s` to `t`. -/
def Reaches (s t : State) : Prop := ∃ n, runSteps n s = .next t

/-- The run from `s` comes to a state with `P`. -/
def Eventually (P : State → Prop) (s : State) : Prop := ∃ t, Reaches s t ∧ P t

/-- `ARB_FAIR` of the run from `s` (R5, D7): no request stays pending for ever. DESIGN CHOICE, safe: a reset
that forgets the request meets it too (log 26). -/
def ArbFair (s : State) : Prop :=
  ∀ t, Reaches s t → ∀ caller ∈ t.req.map Prod.fst, Eventually (fun u => caller ∉ u.req.map Prod.fst) t

/-- `T_WRITE_PROMPT` of the run from `s` (R5, R37, D21): every write the block starts ends. DESIGN CHOICE, safe:
a write that a reset cuts off counts as ended (log 26). -/
def WritePrompt (s : State) : Prop :=
  ∀ t, Reaches s t → t.phase = .write → Eventually (fun u => u.phase ≠ .write) t

/-- `T_READ_BOUNDED` of the run from `s` (R5, R37, D21): every read the block starts ends, by 9 bytes or a
failure. DESIGN CHOICE, safe: a read that a reset cuts off counts as ended too (log 26). -/
def ReadBounded (s : State) : Prop :=
  ∀ t, Reaches s t → t.phase = .read → Eventually (fun u => u.phase ≠ .read) t

/-- The integer sum of a span (R70). -/
def spanSum (span : List Byte) : Nat := (span.map BitVec.toNat).sum

/-! The exchange as one function (R116). -/

/-- Offering bytes in order (R106): the bytes that entered `TXS`, and the code of the first failure;
none when the answers run out. -/
def offerAll : List Byte → List TxAnswer → Option (List Byte × Option Nat)
  | [], _ => some ([], none)
  | _ :: _, [] => none
  | b :: bs, .ok :: rest => (offerAll bs rest).map (fun r => (b :: r.1, r.2))
  | b :: _, .fail cause took :: _ => some (if took then [b] else [], some cause)

/-- Requesting `n` bytes in order (R107): the bytes that left `RXS`, and the code of the first failure;
none when the answers or the bytes run out. -/
def requestAll : Nat → List RxAnswer → List Byte → Option (List Byte × Option Nat)
  | 0, _, _ => some ([], none)
  | _ + 1, [], _ => none
  | _ + 1, .fail cause :: _, _ => some ([], some cause)
  | _ + 1, .deliver :: _, [] => none
  | n + 1, .deliver :: rest, b :: bs => (requestAll n rest bs).map (fun r => (b :: r.1, r.2))

/-- What an exchange does: its outcome, the bytes it adds to `TXS`, the bytes it takes from `RXS` (R115, R116). -/
structure Exchange where
  outcome : OpOutcome
  sent : List Byte
  taken : List Byte
deriving DecidableEq, Repr

/-- `EXEC` as one function of `CONN`, the operands and the transport's answers (R116); none when the
transport leaves a store or a load unanswered (R37). -/
def exchangeFn (conn : Bool) (addr cmd type bank : Byte) (value : Value)
    (txAns : List TxAnswer) (rxAns : List RxAnswer) (rxs : List Byte) : Option Exchange :=
  if conn = false then some ⟨.notConnected, [], []⟩ else
  match offerAll (encodeFrame addr cmd type bank value).bytes txAns with
  | none => none
  | some (sent, some cause) => some ⟨.transportError .write cause, sent, []⟩
  | some (sent, none) =>
    match requestAll 9 rxAns rxs with
    | none => none
    | some (taken, some cause) => some ⟨.transportError .read cause, sent, taken⟩
    | some (taken, none) =>
      match Frame.ofBytes taken with
      | none => none
      | some g =>
        match decodeFrame g with
        | none => some ⟨.checksumError, sent, taken⟩
        | some (status, v) => some ⟨classifyStatus status v, sent, taken⟩

/-- The trace events of an exchange by its outcome, `v` the value of the `OnReceive` event (R115, R153). -/
def exchangeTrace (addr cmd type bank : Byte) (value : Value) (x : Exchange) (v : Value) : List TraceEvent :=
  let onSend := TraceEvent.onSend (encodeFrame addr cmd type bank value) cmd type bank value
  match x.outcome with
  | .notConnected => []
  | .transportError _ _ => [onSend]
  | _ =>
    match Frame.ofBytes x.taken with
    | some g => [onSend, .onReceive g v]
    | none => [onSend]

/-! The TX stream (R45, R118). -/

/-- A segment of `TXS`: the whole or a leading part of a command frame (R32, R45). -/
def IsSegment (addr : Byte) (seg : List Byte) : Prop :=
  ∃ cmd type bank value, seg <+: (encodeFrame addr cmd type bank value).bytes

/-- `TXS` is a concatenation of segments and, while `WRITE` is under way, of the part of the frame
accepted so far, which nothing else follows (R45). -/
def TxsSegmented (s : State) : Prop :=
  ∃ segments : List (List Byte), (∀ seg ∈ segments, IsSegment s.cfg.addr seg) ∧
    s.txs = segments.flatten ++ (if s.phase = .write then s.frame.bytes.take s.regs.cnt.toNat else [])

end Sys2Proof.Machine
end

