-- ==== Sys2Proof/Certificates/Slice0/Obligations.lean ====
section
/-! DEFINITION. The statements for the provers. -/

open Sys2Proof Sys2Proof.Machine

/-! Encodings. -/

/-- Decoding what the encoder writes gives the operation back, the pseudo-operation as its expansion, for
every address byte (R50, R51, R56, R131). -/
def Obligations.DecodeInvertsEncode : Prop :=
  ∀ (addr : Byte) (i : Instr) (r : Raw),
    i.wellFormed = true → encodeAt addr i = some r → decodeAt addr r = .ok i.core

/-- R56: the fields of the 58-bit request word by their places, as numbers; for `ATTACH` and `DETACH` the
bits below are ignored. -/
def Obligations.RequestWordFields : Prop :=
  ∀ w : BitVec 58,
    (w.toNat / 2 ^ 56 = 0 → decodeRequest w =
      .exec (BitVec.ofNat 8 (w.toNat / 2 ^ 48)) (BitVec.ofNat 8 (w.toNat / 2 ^ 40))
        (BitVec.ofNat 8 (w.toNat / 2 ^ 32)) (BitVec.ofNat 32 w.toNat)) ∧
    (w.toNat / 2 ^ 56 = 1 → decodeRequest w = .attach) ∧
    (w.toNat / 2 ^ 56 = 2 → decodeRequest w = .detach) ∧
    (w.toNat / 2 ^ 56 = 3 → decodeRequest w = .hreqReserved)

/-- R87: the command frames are the valid frames that begin with the address byte, and a command frame
determines its operands. -/
def Obligations.CommandFrameDeterminesOperands : Prop :=
  (∀ (addr : Byte) (f : Frame),
    (∃ cmd type bank value, f = encodeFrame addr cmd type bank value) ↔ (f.b0 = addr ∧ f.valid = true)) ∧
  (∀ (addr cmd type bank : Byte) (value : Value),
    (encodeFrame addr cmd type bank value).b1 = cmd ∧ (encodeFrame addr cmd type bank value).b2 = type ∧
    (encodeFrame addr cmd type bank value).b3 = bank ∧ (encodeFrame addr cmd type bank value).value = value)

/-- Words written out in the spec decode to what the spec says they are (95_test_vectors.md). -/
def Obligations.SpecWordsDecode : Prop :=
  decode (.request 0x0010001000001F4) = .ok (.exec 1 0 1 500) ∧
  decode (.request 0x100000000000000) = .ok .attach ∧
  decode (.request 0x200000000000000) = .ok .detach ∧
  decode (.request 0x300000000000000) = .ok .hreqReserved ∧
  decode (.tx [0x02, 0x01, 0x00, 0x01, 0x00, 0x00, 0x01, 0xF4, 0xF9]) = .ok (.cmdf 1 0 1 500) ∧
  decode (.rx [0x02, 0x01, 0x64, 0x01, 0x00, 0x00, 0x00, 0x00, 0x68]) = .ok (.rplOk100 2 1 1 0) ∧
  decode (.rx [0x02, 0x01, 0x05, 0x05, 0x00, 0x00, 0x04, 0xD2, 0xE3]) = .ok (.rplErr5 2 1 5 1234) ∧
  decode (.rx [0x02, 0x01, 0x64, 0x01, 0x00, 0x00, 0x00, 0x00, 0x69]) = .ok (.rplBadck 2 1 100 1 0 0x69)

/-- A step of the block runs the operation decoded from where `PHASE` looks: the granted request word in
`IDLE`, the frame buffer `TXF` in `WRITE`, the received frame in `CLASSIFY` when the decode results are
those of `RXF`. An entry `block` of `env` is used up and hands the turn to the block; any other entry is
an event of the environment. -/
def Obligations.StepRunsDecodedOperation : Prop :=
  (∀ (s : State) (caller : Nat) (rest : List Nat) (w : BitVec 58),
    s.env = [] → s.phase = .idle → s.lock = false → s.arb = caller :: rest → s.requestOf caller = some w →
    step s = exec (decodeRequest w) s) ∧
  (∀ (s : State) (i : Instr),
    s.env = [] → s.phase = .write → decodeCommand s.cfg.addr s.regs.txf = .ok i → step s = exec i s) ∧
  (∀ s : State,
    s.env = [] → s.phase = .classify → s.regs.ckok = s.regs.rxf.valid → s.regs.st = s.regs.rxf.b2 →
    s.regs.rv = s.regs.rxf.value → step s = exec (decodeReply s.regs.rxf) s) ∧
  (∀ (s : State) (rest : List EnvEvent),
    s.env = .block :: rest → step s = blockStep { s with env := rest }) ∧
  (∀ s : State, s.env = [] → step s = blockStep s) ∧
  (∀ (s : State) (e : EnvEvent) (rest : List EnvEvent),
    s.env = e :: rest → e ≠ .block → step s = .next (({ s with env := rest } : State).environment e))

/-! The checksum and its accumulator. -/

/-- R71. -/
def Obligations.CkClrClears : Prop :=
  ∀ s : State, exec .ckClr s = .next { s with regs := { s.regs with acc := 0, cnt := 0 } }

/-- R72: the sum modulo 256, the count one more, nothing else. -/
def Obligations.CkAddAddsModulo256 : Prop :=
  ∀ (s : State) (b : Byte),
    exec (.ckAdd b) s = .next { s with regs :=
      { s.regs with acc := BitVec.ofNat 8 ((s.regs.acc.toNat + b.toNat) % 256),
                    cnt := BitVec.ofNat 4 (s.regs.cnt.toNat + 1) } }

/-- R73. -/
def Obligations.CkEmitPlacesChecksum : Prop :=
  ∀ s : State, exec .ckEmit s = .next { s with regs := { s.regs with txf := { s.regs.txf with b8 := s.regs.acc } } }

/-- R74. -/
def Obligations.CkCmpTestsChecksum : Prop :=
  ∀ s : State, exec .ckCmp s =
    .next { s with regs := { s.regs with ckok := decide (s.regs.acc.toNat = s.regs.rxf.b8.toNat) } }

/-- R75: after `CK.CLR` and a `CK.ADD` of each byte, `ACC` is the checksum and `CNT` the number of bytes;
hence `CK.EMIT` and `CK.CMP` place and test the checksum of their buffer. -/
def Obligations.AccumulatorComputesChecksum : Prop :=
  (∀ (s : State) (span : List Byte), span.length ≤ 8 →
    execSeq (.ckClr :: span.map Instr.ckAdd) s = .next { s with regs :=
      { s.regs with acc := BitVec.ofNat 8 (spanSum span % 256), cnt := BitVec.ofNat 4 span.length } }) ∧
  (∀ s : State, ∃ t, execSeq (.ckClr :: s.regs.txf.span.map Instr.ckAdd ++ [.ckEmit]) s = .next t ∧
    t.regs.txf.b8.toNat = spanSum s.regs.txf.span % 256 ∧ t.regs.txf.span = s.regs.txf.span) ∧
  (∀ s : State, ∃ t, execSeq (.ckClr :: s.regs.rxf.span.map Instr.ckAdd ++ [.ckCmp]) s = .next t ∧
    (t.regs.ckok = true ↔ s.regs.rxf.b8.toNat = spanSum s.regs.rxf.span % 256))

/-- R70, with the result in `ACC` (the model's choice, log 9): `CKSUM` of a span of any length. For a span of
more than 8 bytes, of which the block has none, that `CNT` counts modulo its 4 bits is the model's choice
(log 23). -/
def Obligations.CksumLeavesSumInAcc : Prop :=
  ∀ (s : State) (span : List Byte),
    exec (.cksum span) s = .next { s with regs :=
      { s.regs with acc := BitVec.ofNat 8 (spanSum span % 256), cnt := BitVec.ofNat 4 span.length } }

/-- R77, with the result in `CKOK` (the model's choice, log 9). -/
def Obligations.ValidLeavesTruthInCkok : Prop :=
  ∀ (s : State) (f : Frame),
    exec (.valid f) s = .next { s with regs :=
      { s.regs with acc := BitVec.ofNat 8 (spanSum f.span % 256), cnt := 8,
                    ckok := decide (f.b8.toNat = spanSum f.span % 256) } }

/-- R76, laws 2 and 3: concatenation and order. -/
def Obligations.ChecksumConcatAndOrder : Prop :=
  (∀ s t : List Byte, (checksum (s ++ t)).toNat = ((checksum s).toNat + (checksum t).toNat) % 256) ∧
  (∀ s t : List Byte, s.Perm t → checksum s = checksum t)

/-- R76, law 4: a valid frame with one byte changed is not valid. -/
def Obligations.OneChangedByteIsDetected : Prop :=
  ∀ (f : Frame) (n : Nat) (b : Byte), n ≤ 8 → f.valid = true → b ≠ f.get n → (f.set n b).valid = false

/-! The value field, `ENCODE` and `DECODE`. -/

/-- R83. -/
def Obligations.PackUnpackInverse : Prop :=
  (∀ v : Value, unpackValue (packValue v).1 (packValue v).2.1 (packValue v).2.2.1 (packValue v).2.2.2 = v) ∧
  (∀ p0 p1 p2 p3 : Byte, packValue (unpackValue p0 p1 p2 p3) = (p0, p1, p2, p3))

/-- R80, with the result in `TXF[4..8)` (R104). -/
def Obligations.Pack32PlacesBytes : Prop :=
  ∀ (s : State) (v : Value),
    exec (.pack32 v) s = .next { s with regs := { s.regs with txf :=
      { s.regs.txf with b4 := BitVec.ofNat 8 (v.toNat / 16777216), b5 := BitVec.ofNat 8 (v.toNat / 65536),
                        b6 := BitVec.ofNat 8 (v.toNat / 256), b7 := BitVec.ofNat 8 v.toNat } } }

/-- R81, with the result in `RV` (R108); the second part is its signed reading. -/
def Obligations.Unpack32JoinsBytes : Prop :=
  (∀ (s : State) (p0 p1 p2 p3 : Byte),
    exec (.unpack32 p0 p1 p2 p3) s = .next { s with regs := { s.regs with
      rv := BitVec.ofNat 32 (p0.toNat * 16777216 + p1.toNat * 65536 + p2.toNat * 256 + p3.toNat) } }) ∧
  (∀ p0 p1 p2 p3 : Byte,
    (unpackValue p0 p1 p2 p3).toInt =
      if p0.toNat < 128 then (p0.toNat * 16777216 + p1.toNat * 65536 + p2.toNat * 256 + p3.toNat : Int)
      else (p0.toNat * 16777216 + p1.toNat * 65536 + p2.toNat * 256 + p3.toNat : Int) - 4294967296)

/-- R104 and R82: the nine bytes of `TXF`, the accumulator, `CNT` and `PHASE` after `ENCODE`, nothing else
changed; the `ENCODE` phase of `EXEC` is this. -/
def Obligations.EncodeBuildsCommandFrame : Prop :=
  (∀ (s : State) (cmd type bank : Byte) (value : Value),
    exec (.encode cmd type bank value) s = .next { s with
      phase := .tsend
      regs := { s.regs with
        txf := encodeFrame s.cfg.addr cmd type bank value
        acc := BitVec.ofNat 8 (spanSum (encodeFrame s.cfg.addr cmd type bank value).span % 256)
        cnt := 8 } }) ∧
  (∀ (addr cmd type bank : Byte) (value : Value) (f : Frame), f = encodeFrame addr cmd type bank value →
    f.b0 = addr ∧ f.b1 = cmd ∧ f.b2 = type ∧ f.b3 = bank ∧ (f.b4, f.b5, f.b6, f.b7) = packValue value ∧
    f.b8.toNat = spanSum f.span % 256) ∧
  (∀ (s : State) (cmd type bank : Byte) (value : Value), s.phase = .encode →
    exec (.exec cmd type bank value) s = exec (.encode cmd type bank value) s)

/-- R108: `CKOK`, `ST`, `RV`, the accumulator, `CNT` and `PHASE` after `DECODE`, nothing else changed; the
`DECODE` phase of `EXEC` is this on `RXF`; the three latches hold `DECODE(RXF)`. -/
def Obligations.DecodeLatchesReply : Prop :=
  (∀ (s : State) (f : Frame),
    exec (.decode f) s = .next { s with
      phase := .trecv
      regs := { s.regs with
        acc := BitVec.ofNat 8 (spanSum f.span % 256)
        cnt := 8
        ckok := f.valid
        st := f.b2
        rv := unpackValue f.b4 f.b5 f.b6 f.b7 } }) ∧
  (∀ (s : State) (cmd type bank : Byte) (value : Value), s.phase = .decode →
    exec (.exec cmd type bank value) s = exec (.decode s.regs.rxf) s) ∧
  (∀ f : Frame,
    decodeFrame f = if f.valid = true then some (f.b2, unpackValue f.b4 f.b5 f.b6 f.b7) else none)

/-- R84: `DECODE` accepts a frame if and only if its checksum is right, and then gives bytes 2 and 4 to 7. -/
def Obligations.DecodeAcceptsValidFrames : Prop :=
  ∀ f : Frame,
    (f.b8.toNat ≠ spanSum f.span % 256 → decodeFrame f = none) ∧
    (f.b8.toNat = spanSum f.span % 256 → decodeFrame f = some (f.b2, unpackValue f.b4 f.b5 f.b6 f.b7))

/-- R88: `DECODE` after `ENCODE` never fails the checksum, and of the nine-byte frames over an encoded span
only the one with the right byte 8 passes. -/
def Obligations.EncodedFrameAlwaysDecodes : Prop :=
  ∀ (addr cmd type bank : Byte) (value : Value) (k : Byte),
    decodeFrame (encodeFrame addr cmd type bank value) ≠ none ∧
    (decodeFrame { encodeFrame addr cmd type bank value with b8 := k } ≠ none ↔
      k.toNat = spanSum (encodeFrame addr cmd type bank value).span % 256)

/-- R86: a reply of status 100 gives its value back, in `DECODE` and in every exchange that reads it, whatever
the transport holds behind it and answers later; such exchanges exist; a command frame
fed back decodes to its type and value, a success only if the type is 100 or 101. -/
def Obligations.ValueRoundTrip : Prop :=
  (∀ (a m e : Byte) (v : Value), decodeFrame (sealedFrame a m 100 e v) = some (100, v)) ∧
  (∀ (conn : Bool) (addr cmd type bank a m e : Byte) (value v : Value) (txAns : List TxAnswer)
    (rxAns : List RxAnswer) (rxs : List Byte) (x : Exchange),
    exchangeFn conn addr cmd type bank value txAns rxAns rxs = some x →
    x.taken = (sealedFrame a m 100 e v).bytes →
    x.outcome = .ok v ∧ x.sent = (encodeFrame addr cmd type bank value).bytes) ∧
  (∀ (addr cmd type bank a m e : Byte) (value v : Value) (txAns : List TxAnswer) (rxAns : List RxAnswer)
    (behind : List Byte),
    exchangeFn true addr cmd type bank value (List.replicate 9 .ok ++ txAns) (List.replicate 9 .deliver ++ rxAns)
        ((sealedFrame a m 100 e v).bytes ++ behind) =
      some ⟨.ok v, (encodeFrame addr cmd type bank value).bytes, (sealedFrame a m 100 e v).bytes⟩) ∧
  (∀ (addr cmd type bank : Byte) (v : Value), decodeFrame (encodeFrame addr cmd type bank v) = some (type, v)) ∧
  (∀ (type : Byte) (v w : Value), classifyStatus type v = .ok w → type = 100 ∨ type = 101)

/-! Classification and the responses. -/

/-- R99: the map from status byte to outcome, and how many status values give success, a named error and
`UnknownStatus`. -/
def Obligations.ClassifyIsTheStatusTable : Prop :=
  (∀ (s : Byte) (v : Value), classifyStatus s v =
    if s = 100 ∨ s = 101 then .ok v
    else if s = 1 then .protocolStatusError .checksumMismatchReported
    else if s = 2 then .protocolStatusError .invalidCommand
    else if s = 3 then .protocolStatusError .wrongType
    else if s = 4 then .protocolStatusError .invalidType
    else if s = 5 then .protocolStatusError .configurationLocked
    else if s = 6 then .protocolStatusError .commandNotAvailable
    else .protocolStatusError (.unknownStatus s)) ∧
  (∀ v : Value,
    ((List.range 256).filter (fun n => decide (classifyStatus (BitVec.ofNat 8 n) v = .ok v))).length = 2 ∧
    ((List.range 256).filter (fun n => decide (classifyStatus (BitVec.ofNat 8 n) v ∈
      [.protocolStatusError .checksumMismatchReported, .protocolStatusError .invalidCommand,
       .protocolStatusError .wrongType, .protocolStatusError .invalidType,
       .protocolStatusError .configurationLocked, .protocolStatusError .commandNotAvailable]))).length = 6 ∧
    ((List.range 256).filter (fun n => decide (classifyStatus (BitVec.ofNat 8 n) v =
      .protocolStatusError (.unknownStatus (BitVec.ofNat 8 n))))).length = 248)

/-- R111, R112: `CLASSIFY` ends the exchange with its outcome. -/
def Obligations.ClassifyEndsTheExchange : Prop :=
  ∀ (s : State) (status : Byte) (v : Value),
    ∃ t, exec (.classify status v) s = .next t ∧ Ended (classifyStatus status v) s t

/-- R90 to R98 and R110: the outcome each reply row ends the exchange with. -/
def Obligations.ReplyRowOutcomes : Prop :=
  ∀ (s : State) (r m e st k : Byte) (v : Value),
    (∃ t, exec (.rplOk100 r m e v) s = .next t ∧ Ended (.ok v) s t) ∧
    (∃ t, exec (.rplOk101 r m e v) s = .next t ∧ Ended (.ok v) s t) ∧
    (∃ t, exec (.rplErr1 r m e v) s = .next t ∧ Ended (.protocolStatusError .checksumMismatchReported) s t) ∧
    (∃ t, exec (.rplErr2 r m e v) s = .next t ∧ Ended (.protocolStatusError .invalidCommand) s t) ∧
    (∃ t, exec (.rplErr3 r m e v) s = .next t ∧ Ended (.protocolStatusError .wrongType) s t) ∧
    (∃ t, exec (.rplErr4 r m e v) s = .next t ∧ Ended (.protocolStatusError .invalidType) s t) ∧
    (∃ t, exec (.rplErr5 r m e v) s = .next t ∧ Ended (.protocolStatusError .configurationLocked) s t) ∧
    (∃ t, exec (.rplErr6 r m e v) s = .next t ∧ Ended (.protocolStatusError .commandNotAvailable) s t) ∧
    (∃ t, exec (.rplUnknown r m st e v) s = .next t ∧ Ended (.protocolStatusError (.unknownStatus st)) s t) ∧
    (∃ t, exec (.rplBadck r m st e v k) s = .next t ∧ Ended .checksumError s t)

/-- R53, R62, R84, R151: nine received bytes select the row whose outcome is the classification of byte 2
when the checksum is right, and `ChecksumError` whatever the status when it is not. -/
def Obligations.ReceivedFrameSelectsOutcome : Prop :=
  ∀ (s : State) (f : Frame),
    (f.b8.toNat = spanSum f.span % 256 →
      ∃ t, exec (decodeReply f) s = .next t ∧
        Ended (classifyStatus f.b2 (unpackValue f.b4 f.b5 f.b6 f.b7)) s t) ∧
    (f.b8.toNat ≠ spanSum f.span % 256 → ∃ t, exec (decodeReply f) s = .next t ∧ Ended .checksumError s t)

/-- R57: the response word of every outcome as a number, `kind` in bits 43 to 41, `phase` in bit 40, `code`
in bits 39 to 32, `value` in bits 31 to 0; the sideband holds `CAUSE_W` bits of the code (log 11). -/
def Obligations.ResponseWordLayout : Prop :=
  ∀ (causeW : Nat) (o : OpOutcome),
    match o with
    | .ok v => (o.response causeW).word.toNat = v.toNat ∧ (o.response causeW).cause = 0
    | .notConnected => (o.response causeW).word.toNat = 2 ^ 41 ∧ (o.response causeW).cause = 0
    | .transportError .write c =>
      (o.response causeW).word.toNat = 2 * 2 ^ 41 ∧ (o.response causeW).cause = c % 2 ^ causeW
    | .transportError .read c =>
      (o.response causeW).word.toNat = 2 * 2 ^ 41 + 2 ^ 40 ∧ (o.response causeW).cause = c % 2 ^ causeW
    | .checksumError => (o.response causeW).word.toNat = 3 * 2 ^ 41 ∧ (o.response causeW).cause = 0
    | .protocolStatusError kind =>
      (o.response causeW).cause = 0 ∧
      match kind with
      | .checksumMismatchReported => (o.response causeW).word.toNat = 4 * 2 ^ 41 + 1 * 2 ^ 32
      | .invalidCommand => (o.response causeW).word.toNat = 4 * 2 ^ 41 + 2 * 2 ^ 32
      | .wrongType => (o.response causeW).word.toNat = 4 * 2 ^ 41 + 3 * 2 ^ 32
      | .invalidType => (o.response causeW).word.toNat = 4 * 2 ^ 41 + 4 * 2 ^ 32
      | .configurationLocked => (o.response causeW).word.toNat = 4 * 2 ^ 41 + 5 * 2 ^ 32
      | .commandNotAvailable => (o.response causeW).word.toNat = 4 * 2 ^ 41 + 6 * 2 ^ 32
      | .unknownStatus code => (o.response causeW).word.toNat = 4 * 2 ^ 41 + code.toNat * 2 ^ 32

/-! The host operations, phase by phase. -/

/-- R101: the grant of an `EXEC`, an `ATTACH` and a `DETACH` to the caller the arbiter chose. -/
def Obligations.GrantLatchesRequest : Prop :=
  ∀ (s : State) (caller : Nat) (rest : List Nat) (w : BitVec 58),
    s.phase = .idle → s.lock = false → s.arb = caller :: rest → s.requestOf caller = some w →
    (∀ (cmd type bank : Byte) (value : Value),
      exec (.exec cmd type bank value) s = .next { s with
        lock := true, phase := .chkconn, arb := rest, req := s.req.filter (fun r => r.1 != caller)
        regs := { s.regs with owner := caller, op := .exec, cmd := cmd, type := type, bank := bank, value := value } }) ∧
    exec .attach s = .next { s with
      lock := true, phase := .sys, arb := rest, req := s.req.filter (fun r => r.1 != caller)
      regs := { s.regs with owner := caller, op := .attach, cmd := requestCmd w, type := requestType w,
                            bank := requestBank w, value := requestValue w } } ∧
    exec .detach s = .next { s with
      lock := true, phase := .sys, arb := rest, req := s.req.filter (fun r => r.1 != caller)
      regs := { s.regs with owner := caller, op := .detach, cmd := requestCmd w, type := requestType w,
                            bank := requestBank w, value := requestValue w } }

/-- R59, D24: the reserved request is refused, when it is run and when it is granted. -/
def Obligations.ReservedRequestIsRefused : Prop :=
  (∀ s : State, exec .hreqReserved s = .refused .reservedRequest) ∧
  (∀ (s : State) (caller : Nat) (rest : List Nat) (w : BitVec 58),
    s.env = [] → s.phase = .idle → s.lock = false → s.arb = caller :: rest → s.requestOf caller = some w →
    w.toNat / 2 ^ 56 = 3 → step s = .refused .reservedRequest)

/-- R103: the `CONN` test, first action of an exchange. -/
def Obligations.CheckConnTestsConn : Prop :=
  ∀ (s : State) (cmd type bank : Byte) (value : Value), s.phase = .chkconn →
    (s.conn = false → ∃ t, exec (.exec cmd type bank value) s = .next t ∧ Ended .notConnected s t) ∧
    (s.conn = true → exec (.exec cmd type bank value) s = .next { s with phase := .encode })

/-- R105: the `OnSend` event comes before the first byte; it is dropped when no sink is connected (R113). -/
def Obligations.SendIsTracedBeforeWriting : Prop :=
  ∀ (s : State) (cmd type bank : Byte) (value : Value), s.phase = .tsend →
    exec (.exec cmd type bank value) s = .next { s with
      phase := .write
      regs := { s.regs with cnt := 0 }
      trc := if s.cfg.tracePresent = true then s.trc ++ [.onSend s.regs.txf cmd type bank value] else s.trc }

/-- R106, R31: one store of `WRITE`, by the transport's answer, for `EXEC` in `WRITE` and for the row of the
emitted frame; with no answer the block waits. -/
def Obligations.WriteOffersNextByte : Prop :=
  ∀ (s : State) (i : Instr) (f : Frame) (cmd type bank : Byte) (value : Value),
    s.phase = .write → s.regs.cnt.toNat ≤ 8 →
    ((i = .exec cmd type bank value ∧ f = s.regs.txf) ∨
      (i = .cmdf cmd type bank value ∧ f = encodeFrame s.cfg.addr cmd type bank value)) →
    (s.txAns = [] → exec i s = .next s) ∧
    (∀ rest, s.txAns = .ok :: rest → s.regs.cnt.toNat < 8 →
      exec i s = .next { s with txAns := rest, txs := s.txs ++ [f.get s.regs.cnt.toNat],
                                regs := { s.regs with cnt := s.regs.cnt + 1 } }) ∧
    (∀ rest, s.txAns = .ok :: rest → s.regs.cnt.toNat = 8 →
      exec i s = .next { s with txAns := rest, txs := s.txs ++ [f.b8],
                                regs := { s.regs with cnt := 0 }, phase := .read }) ∧
    (∀ rest cause took, s.txAns = .fail cause took :: rest →
      ∃ t, exec i s = .next t ∧
        Ended (.transportError .write cause)
          { s with txAns := rest, txs := if took = true then s.txs ++ [f.get s.regs.cnt.toNat] else s.txs } t)

/-- R107, R33: one load of `READ`, by the transport's answer; with no answer, or no byte to deliver, the
block waits. -/
def Obligations.ReadTakesNextByte : Prop :=
  ∀ (s : State) (cmd type bank : Byte) (value : Value), s.phase = .read → s.regs.cnt.toNat ≤ 8 →
    (s.rxAns = [] → exec (.exec cmd type bank value) s = .next s) ∧
    (∀ rest, s.rxAns = .deliver :: rest → s.rxs = [] → exec (.exec cmd type bank value) s = .next s) ∧
    (∀ rest b bs, s.rxAns = .deliver :: rest → s.rxs = b :: bs → s.regs.cnt.toNat < 8 →
      exec (.exec cmd type bank value) s = .next { s with
        rxAns := rest, rxs := bs
        regs := { s.regs with rxf := s.regs.rxf.set s.regs.cnt.toNat b, cnt := s.regs.cnt + 1 } }) ∧
    (∀ rest b bs, s.rxAns = .deliver :: rest → s.rxs = b :: bs → s.regs.cnt.toNat = 8 →
      exec (.exec cmd type bank value) s = .next { s with
        rxAns := rest, rxs := bs, phase := .decode, regs := { s.regs with rxf := { s.regs.rxf with b8 := b } } }) ∧
    (∀ rest cause, s.rxAns = .fail cause :: rest →
      ∃ t, exec (.exec cmd type bank value) s = .next t ∧
        Ended (.transportError .read cause) { s with rxAns := rest } t)

/-- R109: the `OnReceive` event, with a value that nothing fixes when the checksum is bad (log 5). -/
def Obligations.ReceiveIsTraced : Prop :=
  ∀ (s : State) (cmd type bank : Byte) (value : Value), s.phase = .trecv →
    (s.regs.ckok = true → exec (.exec cmd type bank value) s = .next { s with
      phase := .classify
      trc := if s.cfg.tracePresent = true then s.trc ++ [.onReceive s.regs.rxf s.regs.rv] else s.trc }) ∧
    (s.regs.ckok = false → ∃ v draws, exec (.exec cmd type bank value) s = .next { s with
      phase := .classify
      draws := draws
      trc := if s.cfg.tracePresent = true then s.trc ++ [.onReceive s.regs.rxf v] else s.trc })

/-- R110, R111: the checksum test comes first, then the classification of the status. -/
def Obligations.ClassifyTestsChecksumFirst : Prop :=
  ∀ (s : State) (cmd type bank : Byte) (value : Value), s.phase = .classify →
    (s.regs.ckok = false → ∃ t, exec (.exec cmd type bank value) s = .next t ∧ Ended .checksumError s t) ∧
    (s.regs.ckok = true →
      ∃ t, exec (.exec cmd type bank value) s = .next t ∧ Ended (classifyStatus s.regs.st s.regs.rv) s t)

/-- R120: `ATTACH` in `SYS` sets `CONN` and answers `Ok(0)`, whatever `CONN` was; both streams, the trace
log and everything else stay. -/
def Obligations.AttachSetsConn : Prop :=
  ∀ s : State, s.phase = .sys → s.regs.op = .attach →
    ∃ t, exec .attach s = .next t ∧ Ended (.ok 0) { s with conn := true } t

/-- R121: `DETACH` in `SYS` clears `CONN` and answers `Ok(0)`, whatever `CONN` was; everything else stays. -/
def Obligations.DetachClearsConn : Prop :=
  ∀ s : State, s.phase = .sys → s.regs.op = .detach →
    ∃ t, exec .detach s = .next t ∧ Ended (.ok 0) { s with conn := false } t

/-- R131: `ROTATE_RIGHT` is `EXEC 1, 0, motor, velocity` in every state; it has its request word (log 21) and
is granted as it (R101, over the arbiter's list of log 6). -/
def Obligations.RotateRightIsExec : Prop :=
  (∀ (motor : Byte) (velocity : Value) (s : State),
    exec (.rotateRight motor velocity) s = exec (.exec 1 0 motor velocity) s ∧
    encode (.rotateRight motor velocity) = encode (.exec 1 0 motor velocity)) ∧
  (∀ (s : State) (caller : Nat) (rest : List Nat) (w : BitVec 58) (motor : Byte) (velocity : Value),
    s.phase = .idle → s.lock = false → s.arb = caller :: rest → s.requestOf caller = some w →
    exec (.rotateRight motor velocity) s = .next { s with
      lock := true, phase := .chkconn, arb := rest, req := s.req.filter (fun r => r.1 != caller)
      regs := { s.regs with owner := caller, op := .exec, cmd := 1, type := 0, bank := motor, value := velocity } })

/-! The machine as a whole. -/

/-- R114: the transitions of `PHASE` with their conditions; there are no others. What R114 does not list: an
idle block without a choice of the arbiter, or with a choice of a caller that has nothing pending, grants
nothing (log 8), and a transfer without an answer leaves the state as it is (R37, log 7). -/
def Obligations.PhaseTransitions : Prop :=
  ∀ s t : State, s.env = [] → step s = .next t →
    match s.phase with
    | .idle =>
      ((s.lock = true ∨ s.granted = none) ∧ t.phase = .idle ∧ t.lock = s.lock) ∨
      (s.lock = false ∧ t.lock = true ∧ ∃ caller w, s.granted = some (caller, w) ∧ t.regs.owner = caller ∧
        ((w.toNat / 2 ^ 56 = 0 ∧ t.phase = .chkconn ∧ t.regs.op = .exec) ∨
          (w.toNat / 2 ^ 56 = 1 ∧ t.phase = .sys ∧ t.regs.op = .attach) ∨
          (w.toNat / 2 ^ 56 = 2 ∧ t.phase = .sys ∧ t.regs.op = .detach)))
    | .sys => t.phase = .idle ∧ (s.regs.op = .attach ∧ t.conn = true ∨ s.regs.op = .detach ∧ t.conn = false)
    | .chkconn => (s.conn = false ∧ t.phase = .idle) ∨ (s.conn = true ∧ t.phase = .encode)
    | .encode => t.phase = .tsend
    | .tsend => t.phase = .write ∧ t.regs.cnt = 0
    | .write =>
      (s.txAns = [] ∧ t = s) ∨
      (∃ rest, s.txAns = .ok :: rest ∧
        ((s.regs.cnt.toNat < 8 ∧ t.phase = .write ∧ t.regs.cnt.toNat = s.regs.cnt.toNat + 1) ∨
          (s.regs.cnt.toNat = 8 ∧ t.phase = .read ∧ t.regs.cnt = 0))) ∨
      (∃ cause took rest, s.txAns = .fail cause took :: rest ∧ t.phase = .idle)
    | .read =>
      ((s.rxAns = [] ∨ ∃ rest, s.rxAns = .deliver :: rest ∧ s.rxs = []) ∧ t = s) ∨
      (∃ rest b bs, s.rxAns = .deliver :: rest ∧ s.rxs = b :: bs ∧
        ((s.regs.cnt.toNat < 8 ∧ t.phase = .read ∧ t.regs.cnt.toNat = s.regs.cnt.toNat + 1) ∨
          (s.regs.cnt.toNat = 8 ∧ t.phase = .decode))) ∨
      (∃ cause rest, s.rxAns = .fail cause :: rest ∧ t.phase = .idle)
    | .decode => t.phase = .trecv
    | .trecv => t.phase = .classify
    | .classify => t.phase = .idle

/-- R13, R62, R114: while an exchange is in flight a step is `EXEC` with the latched operands, whichever
internal row or frame `PHASE` selects. -/
def Obligations.InFlightStepIsExec : Prop :=
  ∀ s : State, s.env = [] → s.phase.inExchange = true →
    step s = exec (.exec s.regs.cmd s.regs.type s.regs.bank s.regs.value) s

/-- R15, R48, R101: while the lock is held nothing is granted, and the operands of the operation in flight
do not change. -/
def Obligations.NoGrantWhileLocked : Prop :=
  ∀ s t : State, s.env = [] → s.lock = true → step s = .next t →
    t.req = s.req ∧ t.arb = s.arb ∧
    (t.lock = true → t.regs.owner = s.regs.owner ∧ t.regs.op = s.regs.op ∧ t.regs.cmd = s.regs.cmd ∧
      t.regs.type = s.regs.type ∧ t.regs.bank = s.regs.bank ∧ t.regs.value = s.regs.value)

/-- R41, R43: a step of the block moves at most one byte, puts one into `TXS` only in `WRITE`, the next byte
of `TXF`, and takes one from `RXS` only in `READ`, the first. -/
def Obligations.StreamsMoveOneByte : Prop :=
  ∀ s t : State, s.env = [] → step s = .next t →
    (t.txs = s.txs ∨ (s.phase = .write ∧ t.txs = s.txs ++ [s.regs.txf.get s.regs.cnt.toNat])) ∧
    (t.rxs = s.rxs ∨ (s.phase = .read ∧ ∃ b, s.rxs = b :: t.rxs))

/-- R10, R122: a step that changes `CONN` is that of `ATTACH` or `DETACH`, holding the lock in `SYS`, or a
reset; no other operation changes it, in any state. -/
def Obligations.ConnChangesOnlyInSys : Prop :=
  (∀ s t : State, s.Inv → step s = .next t → t.conn ≠ s.conn →
    ((s.env = [] ∨ ∃ rest, s.env = .block :: rest) ∧ s.lock = true ∧ s.phase = .sys ∧
      ((s.regs.op = .attach ∧ t.conn = true) ∨ (s.regs.op = .detach ∧ t.conn = false))) ∨
    (∃ rest, s.env = .reset :: rest ∧ t.conn = s.cfg.connAtReset)) ∧
  (∀ (i : Instr) (s t : State), exec i s = .next t → t.conn ≠ s.conn →
    s.phase = .sys ∧
      ((i = .attach ∧ s.regs.op = .attach ∧ t.conn = true) ∨ (i = .detach ∧ s.regs.op = .detach ∧ t.conn = false)))

/-- R20: no operation and no step of any agent changes `ADDR` or another parameter; `ADDR` is `0x02` at reset and stands
in byte 0 of every frame `ENCODE` builds. -/
def Obligations.AddressIsHardwired : Prop :=
  (∀ s t : State, step s = .next t → t.cfg = s.cfg) ∧
  (∀ (i : Instr) (s t : State), exec i s = .next t → t.cfg = s.cfg) ∧
  State.reset.cfg.addr = 0x02 ∧
  (∀ (s t : State) (cmd type bank : Byte) (value : Value),
    exec (.encode cmd type bank value) s = .next t → t.regs.txf.b0 = s.cfg.addr)

/-- R27, R170: the machine after reset, for every value of the parameters; the invariant and the form of the
TX stream hold of it. -/
def Obligations.ResetState : Prop :=
  ∀ p : Params,
    (State.resetWith p).lock = false ∧ (State.resetWith p).phase = .idle ∧
    (State.resetWith p).conn = p.connAtReset ∧ (State.resetWith p).req = [] ∧ (State.resetWith p).rsp = [] ∧
    State.reset.conn = false ∧ (State.resetWith p).Inv ∧ TxsSegmented (State.resetWith p)

/-- R170, R171: a reset between any two steps. -/
def Obligations.ResetAbandonsExchange : Prop :=
  ∀ (s : State) (rest : List EnvEvent), s.env = .reset :: rest →
    ∃ t, step s = .next t ∧ t.lock = false ∧ t.phase = .idle ∧ t.conn = s.cfg.connAtReset ∧ t.req = [] ∧
      t.cfg = s.cfg ∧ t.txs = s.txs ∧ t.rxs = s.rxs ∧ t.trc = s.trc ∧ t.rsp = s.rsp ∧ t.env = rest ∧
      t.txAns = s.txAns ∧ t.rxAns = s.rxAns ∧ t.arb = s.arb

/-- R102: a caller with an operation outstanding presents no other, nor does a caller that does not exist (the
event changes nothing, log 22); an existing caller with none has its request pending from then on. A caller
that takes its outcome changes nothing else and has nothing outstanding any more. -/
def Obligations.CallerPresentsOneRequest : Prop :=
  (∀ (s : State) (caller : Nat) (w : BitVec 58) (rest : List EnvEvent), s.env = .present caller w :: rest →
    (caller ∈ s.outstanding ∨ s.cfg.nCallers ≤ caller → step s = .next { s with env := rest }) ∧
    (caller ∉ s.outstanding → caller < s.cfg.nCallers →
      step s = .next { s with env := rest, req := s.req ++ [(caller, w)] })) ∧
  (∀ (s : State) (caller : Nat) (rest : List EnvEvent), s.env = .take caller :: rest →
    step s = .next { s with env := rest, rsp := s.rsp.filter (fun r => r.1 != caller) } ∧
    (s.Inv → caller ∈ s.rsp.map Prod.fst →
      caller ∉ ({ s with env := rest, rsp := s.rsp.filter (fun r => r.1 != caller) } : State).outstanding))

/-- Every step, of the block or of its environment, keeps the invariant. -/
def Obligations.StepKeepsInvariant : Prop :=
  ∀ s t : State, s.Inv → step s = .next t → t.Inv

/-- A state with the invariant never stops, but at the grant of a reserved request (R59). -/
def Obligations.OnlyReservedRequestsStop : Prop :=
  ∀ s : State, s.Inv →
    (∃ t, step s = .next t) ∨
    (step s = .refused .reservedRequest ∧ s.phase = .idle ∧
      ∃ caller rest w, s.arb = caller :: rest ∧ s.requestOf caller = some w ∧ w.toNat / 2 ^ 56 = 3)

/-- R45 (5), R32, R118: `TXS` stays a concatenation of whole or leading parts of command frames, the one
under way last, whatever the environment does. -/
def Obligations.StepKeepsTxsSegmented : Prop :=
  ∀ s t : State, s.Inv → TxsSegmented s → step s = .next t → TxsSegmented t

/-- R116, R115, R112: from the grant on, 25 steps (one action a step, log 13) run an `EXEC` to its end: the outcome, the bytes added to
`TXS` and taken from `RXS`, the trace events and the response are those of the one function of the
transport's answers. The value of the last `OnReceive` event is the reply's only if the checksum is right. -/
def Obligations.ExchangeIsOneFunction : Prop :=
  ∀ (s : State) (caller : Nat) (w : BitVec 58) (cmd type bank : Byte) (value : Value) (x : Exchange),
    s.env = [] → s.phase = .idle → s.lock = false → s.arb = [caller] → s.requestOf caller = some w →
    decodeRequest w = .exec cmd type bank value →
    exchangeFn s.conn s.cfg.addr cmd type bank value s.txAns s.rxAns s.rxs = some x →
    ∃ t v, runSteps 25 s = .next t ∧ t.lock = false ∧ t.phase = .idle ∧ t.conn = s.conn ∧
      t.rsp = s.rsp ++ [(caller, x.outcome.response s.cfg.causeW)] ∧
      t.txs = s.txs ++ x.sent ∧ s.rxs = x.taken ++ t.rxs ∧
      t.req = s.req.filter (fun r => r.1 != caller) ∧
      t.trc = (if s.cfg.tracePresent = true then s.trc ++ exchangeTrace s.cfg.addr cmd type bank value x v
               else s.trc) ∧
      (∀ g, Frame.ofBytes x.taken = some g → g.valid = true → v = g.value)

/-- R153, R41, R117: what an exchange leaves in the streams, by its outcome. -/
def Obligations.ExchangeEffectsByOutcome : Prop :=
  ∀ (conn : Bool) (addr cmd type bank : Byte) (value : Value) (txAns : List TxAnswer) (rxAns : List RxAnswer)
    (rxs : List Byte) (x : Exchange),
    exchangeFn conn addr cmd type bank value txAns rxAns rxs = some x →
    x.sent <+: (encodeFrame addr cmd type bank value).bytes ∧ x.taken <+: rxs ∧
    match x.outcome with
    | .notConnected => x.sent = [] ∧ x.taken = []
    | .transportError .write _ => x.taken = []
    | .transportError .read _ =>
      x.sent = (encodeFrame addr cmd type bank value).bytes ∧ x.taken.length ≤ 8
    | _ => x.sent = (encodeFrame addr cmd type bank value).bytes ∧ x.taken.length = 9

/-- R120, R121: two steps run an `ATTACH` or a `DETACH` to its end. -/
def Obligations.AttachDetachRunToTheEnd : Prop :=
  ∀ (s : State) (caller : Nat) (w : BitVec 58) (attach : Bool),
    s.env = [] → s.phase = .idle → s.lock = false → s.arb = [caller] → s.requestOf caller = some w →
    decodeRequest w = (if attach then .attach else .detach) →
    ∃ t, runSteps 2 s = .next t ∧ t.lock = false ∧ t.phase = .idle ∧ t.conn = attach ∧
      t.rsp = s.rsp ++ [(caller, (OpOutcome.ok 0).response s.cfg.causeW)] ∧
      t.txs = s.txs ∧ t.rxs = s.rxs ∧ t.trc = s.trc ∧ t.req = s.req.filter (fun r => r.1 != caller)

/-- R37, R187: a load or a store the transport never answers holds the lock for ever; `T_READ_BOUNDED` or
`T_WRITE_PROMPT` excludes it (U8). -/
def Obligations.UnansweredTransferHangs : Prop :=
  ∀ s : State, s.env = [] → s.regs.cnt.toNat ≤ 8 →
    (s.phase = .read → (s.rxAns = [] ∨ ∃ rest, s.rxAns = .deliver :: rest ∧ s.rxs = []) →
      (∀ n, runSteps n s = .next s) ∧ ¬ ReadBounded s) ∧
    (s.phase = .write → s.txAns = [] → (∀ n, runSteps n s = .next s) ∧ ¬ WritePrompt s)

/-- R37, R112: where the transport answers every write and every read, the operation that holds the lock ends;
without a reset, with its outcome delivered to its caller. -/
def Obligations.AnsweredTransfersEndTheOperation : Prop :=
  ∀ s : State, s.Inv → WritePrompt s → ReadBounded s → s.lock = true →
    Eventually (fun t => t.lock = false) s ∧
    (EnvEvent.reset ∉ s.env → Eventually (fun t => t.lock = false ∧ s.regs.owner ∈ t.rsp.map Prod.fst) s)

/-- R102, R189: under the three premises, and without a reset, every caller with a pending request is
answered. -/
def Obligations.WaitingCallerIsAnswered : Prop :=
  ∀ (s : State) (caller : Nat), s.Inv → ArbFair s → WritePrompt s → ReadBounded s → EnvEvent.reset ∉ s.env →
    caller ∈ s.req.map Prod.fst → Eventually (fun t => caller ∈ t.rsp.map Prod.fst) s

/-- R12: nothing the transient registers hold between exchanges reaches anything: two idle states that
differ in them alone run to states that differ in nothing but transient registers, stop by stop. -/
def Obligations.DeadRegistersAreNeverRead : Prop :=
  ∀ (s : State) (r : Regs) (n : Nat), s.phase = .idle → s.lock = false →
    match runSteps n s, runSteps n { s with regs := r } with
    | .next t, .next u => SameButRegs t u
    | .fault f, .fault g => f = g
    | .refused f, .refused g => f = g
    | _, _ => False
end

