-- ==== Sys2Proof/Laws/State.lean ====
section
/-! SUPPORT. One lemma for each field of the state under each named update. -/

namespace Sys2Proof.Machine

/-! `CONN` written (R10). -/

@[simp] theorem State.setConn_cfg (c : Bool) (s : State) : (s.setConn c).cfg = s.cfg := rfl
@[simp] theorem State.setConn_conn (c : Bool) (s : State) : (s.setConn c).conn = c := rfl
@[simp] theorem State.setConn_lock (c : Bool) (s : State) : (s.setConn c).lock = s.lock := rfl
@[simp] theorem State.setConn_phase (c : Bool) (s : State) : (s.setConn c).phase = s.phase := rfl
@[simp] theorem State.setConn_regs (c : Bool) (s : State) : (s.setConn c).regs = s.regs := rfl
@[simp] theorem State.setConn_txs (c : Bool) (s : State) : (s.setConn c).txs = s.txs := rfl
@[simp] theorem State.setConn_rxs (c : Bool) (s : State) : (s.setConn c).rxs = s.rxs := rfl
@[simp] theorem State.setConn_trc (c : Bool) (s : State) : (s.setConn c).trc = s.trc := rfl
@[simp] theorem State.setConn_req (c : Bool) (s : State) : (s.setConn c).req = s.req := rfl
@[simp] theorem State.setConn_rsp (c : Bool) (s : State) : (s.setConn c).rsp = s.rsp := rfl
@[simp] theorem State.setConn_arb (c : Bool) (s : State) : (s.setConn c).arb = s.arb := rfl
@[simp] theorem State.setConn_txAns (c : Bool) (s : State) : (s.setConn c).txAns = s.txAns := rfl
@[simp] theorem State.setConn_rxAns (c : Bool) (s : State) : (s.setConn c).rxAns = s.rxAns := rfl
@[simp] theorem State.setConn_env (c : Bool) (s : State) : (s.setConn c).env = s.env := rfl
@[simp] theorem State.setConn_draws (c : Bool) (s : State) : (s.setConn c).draws = s.draws := rfl

/-! `LOCK` written (R11). -/

@[simp] theorem State.setLock_cfg (l : Bool) (s : State) : (s.setLock l).cfg = s.cfg := rfl
@[simp] theorem State.setLock_conn (l : Bool) (s : State) : (s.setLock l).conn = s.conn := rfl
@[simp] theorem State.setLock_lock (l : Bool) (s : State) : (s.setLock l).lock = l := rfl
@[simp] theorem State.setLock_phase (l : Bool) (s : State) : (s.setLock l).phase = s.phase := rfl
@[simp] theorem State.setLock_regs (l : Bool) (s : State) : (s.setLock l).regs = s.regs := rfl
@[simp] theorem State.setLock_txs (l : Bool) (s : State) : (s.setLock l).txs = s.txs := rfl
@[simp] theorem State.setLock_rxs (l : Bool) (s : State) : (s.setLock l).rxs = s.rxs := rfl
@[simp] theorem State.setLock_trc (l : Bool) (s : State) : (s.setLock l).trc = s.trc := rfl
@[simp] theorem State.setLock_req (l : Bool) (s : State) : (s.setLock l).req = s.req := rfl
@[simp] theorem State.setLock_rsp (l : Bool) (s : State) : (s.setLock l).rsp = s.rsp := rfl
@[simp] theorem State.setLock_arb (l : Bool) (s : State) : (s.setLock l).arb = s.arb := rfl
@[simp] theorem State.setLock_txAns (l : Bool) (s : State) : (s.setLock l).txAns = s.txAns := rfl
@[simp] theorem State.setLock_rxAns (l : Bool) (s : State) : (s.setLock l).rxAns = s.rxAns := rfl
@[simp] theorem State.setLock_env (l : Bool) (s : State) : (s.setLock l).env = s.env := rfl
@[simp] theorem State.setLock_draws (l : Bool) (s : State) : (s.setLock l).draws = s.draws := rfl

/-! The transient registers forgotten (R12). -/

@[simp] theorem State.forget_cfg (s : State) : (s.forget).cfg = s.cfg := rfl
@[simp] theorem State.forget_conn (s : State) : (s.forget).conn = s.conn := rfl
@[simp] theorem State.forget_lock (s : State) : (s.forget).lock = s.lock := rfl
@[simp] theorem State.forget_phase (s : State) : (s.forget).phase = s.phase := rfl
@[simp] theorem State.forget_regs (s : State) : (s.forget).regs = Config.deadRegs s.draws := rfl
@[simp] theorem State.forget_txs (s : State) : (s.forget).txs = s.txs := rfl
@[simp] theorem State.forget_rxs (s : State) : (s.forget).rxs = s.rxs := rfl
@[simp] theorem State.forget_trc (s : State) : (s.forget).trc = s.trc := rfl
@[simp] theorem State.forget_req (s : State) : (s.forget).req = s.req := rfl
@[simp] theorem State.forget_rsp (s : State) : (s.forget).rsp = s.rsp := rfl
@[simp] theorem State.forget_arb (s : State) : (s.forget).arb = s.arb := rfl
@[simp] theorem State.forget_txAns (s : State) : (s.forget).txAns = s.txAns := rfl
@[simp] theorem State.forget_rxAns (s : State) : (s.forget).rxAns = s.rxAns := rfl
@[simp] theorem State.forget_env (s : State) : (s.forget).env = s.env := rfl
@[simp] theorem State.forget_draws (s : State) : (s.forget).draws = s.draws + 1 := rfl

/-! A value drawn (R8). -/

@[simp] theorem State.draw_cfg (s : State) : (s.draw.2).cfg = s.cfg := rfl
@[simp] theorem State.draw_conn (s : State) : (s.draw.2).conn = s.conn := rfl
@[simp] theorem State.draw_lock (s : State) : (s.draw.2).lock = s.lock := rfl
@[simp] theorem State.draw_phase (s : State) : (s.draw.2).phase = s.phase := rfl
@[simp] theorem State.draw_regs (s : State) : (s.draw.2).regs = s.regs := rfl
@[simp] theorem State.draw_txs (s : State) : (s.draw.2).txs = s.txs := rfl
@[simp] theorem State.draw_rxs (s : State) : (s.draw.2).rxs = s.rxs := rfl
@[simp] theorem State.draw_trc (s : State) : (s.draw.2).trc = s.trc := rfl
@[simp] theorem State.draw_req (s : State) : (s.draw.2).req = s.req := rfl
@[simp] theorem State.draw_rsp (s : State) : (s.draw.2).rsp = s.rsp := rfl
@[simp] theorem State.draw_arb (s : State) : (s.draw.2).arb = s.arb := rfl
@[simp] theorem State.draw_txAns (s : State) : (s.draw.2).txAns = s.txAns := rfl
@[simp] theorem State.draw_rxAns (s : State) : (s.draw.2).rxAns = s.rxAns := rfl
@[simp] theorem State.draw_env (s : State) : (s.draw.2).env = s.env := rfl
@[simp] theorem State.draw_draws (s : State) : (s.draw.2).draws = s.draws + 1 := rfl

/-! A trace event (R113). -/

@[simp] theorem State.trace_cfg (e : TraceEvent) (s : State) : (s.trace e).cfg = s.cfg := rfl
@[simp] theorem State.trace_conn (e : TraceEvent) (s : State) : (s.trace e).conn = s.conn := rfl
@[simp] theorem State.trace_lock (e : TraceEvent) (s : State) : (s.trace e).lock = s.lock := rfl
@[simp] theorem State.trace_phase (e : TraceEvent) (s : State) : (s.trace e).phase = s.phase := rfl
@[simp] theorem State.trace_regs (e : TraceEvent) (s : State) : (s.trace e).regs = s.regs := rfl
@[simp] theorem State.trace_txs (e : TraceEvent) (s : State) : (s.trace e).txs = s.txs := rfl
@[simp] theorem State.trace_rxs (e : TraceEvent) (s : State) : (s.trace e).rxs = s.rxs := rfl
@[simp] theorem State.trace_trc (e : TraceEvent) (s : State) : (s.trace e).trc = if s.cfg.tracePresent then s.trc ++ [e] else s.trc := rfl
@[simp] theorem State.trace_req (e : TraceEvent) (s : State) : (s.trace e).req = s.req := rfl
@[simp] theorem State.trace_rsp (e : TraceEvent) (s : State) : (s.trace e).rsp = s.rsp := rfl
@[simp] theorem State.trace_arb (e : TraceEvent) (s : State) : (s.trace e).arb = s.arb := rfl
@[simp] theorem State.trace_txAns (e : TraceEvent) (s : State) : (s.trace e).txAns = s.txAns := rfl
@[simp] theorem State.trace_rxAns (e : TraceEvent) (s : State) : (s.trace e).rxAns = s.rxAns := rfl
@[simp] theorem State.trace_env (e : TraceEvent) (s : State) : (s.trace e).env = s.env := rfl
@[simp] theorem State.trace_draws (e : TraceEvent) (s : State) : (s.trace e).draws = s.draws := rfl

/-! A response delivered (R112). -/

@[simp] theorem State.deliver_cfg (o : OpOutcome) (s : State) : (s.deliver o).cfg = s.cfg := rfl
@[simp] theorem State.deliver_conn (o : OpOutcome) (s : State) : (s.deliver o).conn = s.conn := rfl
@[simp] theorem State.deliver_lock (o : OpOutcome) (s : State) : (s.deliver o).lock = s.lock := rfl
@[simp] theorem State.deliver_phase (o : OpOutcome) (s : State) : (s.deliver o).phase = s.phase := rfl
@[simp] theorem State.deliver_regs (o : OpOutcome) (s : State) : (s.deliver o).regs = s.regs := rfl
@[simp] theorem State.deliver_txs (o : OpOutcome) (s : State) : (s.deliver o).txs = s.txs := rfl
@[simp] theorem State.deliver_rxs (o : OpOutcome) (s : State) : (s.deliver o).rxs = s.rxs := rfl
@[simp] theorem State.deliver_trc (o : OpOutcome) (s : State) : (s.deliver o).trc = s.trc := rfl
@[simp] theorem State.deliver_req (o : OpOutcome) (s : State) : (s.deliver o).req = s.req := rfl
@[simp] theorem State.deliver_rsp (o : OpOutcome) (s : State) : (s.deliver o).rsp = s.rsp ++ [(s.regs.owner, o.response s.cfg.causeW)] := rfl
@[simp] theorem State.deliver_arb (o : OpOutcome) (s : State) : (s.deliver o).arb = s.arb := rfl
@[simp] theorem State.deliver_txAns (o : OpOutcome) (s : State) : (s.deliver o).txAns = s.txAns := rfl
@[simp] theorem State.deliver_rxAns (o : OpOutcome) (s : State) : (s.deliver o).rxAns = s.rxAns := rfl
@[simp] theorem State.deliver_env (o : OpOutcome) (s : State) : (s.deliver o).env = s.env := rfl
@[simp] theorem State.deliver_draws (o : OpOutcome) (s : State) : (s.deliver o).draws = s.draws := rfl

/-! `Finish` (R112). -/

@[simp] theorem State.finish_cfg (o : OpOutcome) (s : State) : (s.finish o).cfg = s.cfg := rfl
@[simp] theorem State.finish_conn (o : OpOutcome) (s : State) : (s.finish o).conn = s.conn := rfl
@[simp] theorem State.finish_lock (o : OpOutcome) (s : State) : (s.finish o).lock = false := rfl
@[simp] theorem State.finish_phase (o : OpOutcome) (s : State) : (s.finish o).phase = .idle := rfl
@[simp] theorem State.finish_regs (o : OpOutcome) (s : State) : (s.finish o).regs = Config.deadRegs s.draws := rfl
@[simp] theorem State.finish_txs (o : OpOutcome) (s : State) : (s.finish o).txs = s.txs := rfl
@[simp] theorem State.finish_rxs (o : OpOutcome) (s : State) : (s.finish o).rxs = s.rxs := rfl
@[simp] theorem State.finish_trc (o : OpOutcome) (s : State) : (s.finish o).trc = s.trc := rfl
@[simp] theorem State.finish_req (o : OpOutcome) (s : State) : (s.finish o).req = s.req := rfl
@[simp] theorem State.finish_rsp (o : OpOutcome) (s : State) : (s.finish o).rsp = s.rsp ++ [(s.regs.owner, o.response s.cfg.causeW)] := rfl
@[simp] theorem State.finish_arb (o : OpOutcome) (s : State) : (s.finish o).arb = s.arb := rfl
@[simp] theorem State.finish_txAns (o : OpOutcome) (s : State) : (s.finish o).txAns = s.txAns := rfl
@[simp] theorem State.finish_rxAns (o : OpOutcome) (s : State) : (s.finish o).rxAns = s.rxAns := rfl
@[simp] theorem State.finish_env (o : OpOutcome) (s : State) : (s.finish o).env = s.env := rfl
@[simp] theorem State.finish_draws (o : OpOutcome) (s : State) : (s.finish o).draws = s.draws + 1 := rfl

/-! Reset (R170). -/

@[simp] theorem State.resetEvent_cfg (s : State) : (s.resetEvent).cfg = s.cfg := rfl
@[simp] theorem State.resetEvent_conn (s : State) : (s.resetEvent).conn = s.cfg.connAtReset := rfl
@[simp] theorem State.resetEvent_lock (s : State) : (s.resetEvent).lock = false := rfl
@[simp] theorem State.resetEvent_phase (s : State) : (s.resetEvent).phase = .idle := rfl
@[simp] theorem State.resetEvent_regs (s : State) : (s.resetEvent).regs = Config.deadRegs s.draws := rfl
@[simp] theorem State.resetEvent_txs (s : State) : (s.resetEvent).txs = s.txs := rfl
@[simp] theorem State.resetEvent_rxs (s : State) : (s.resetEvent).rxs = s.rxs := rfl
@[simp] theorem State.resetEvent_trc (s : State) : (s.resetEvent).trc = s.trc := rfl
@[simp] theorem State.resetEvent_req (s : State) : (s.resetEvent).req = [] := rfl
@[simp] theorem State.resetEvent_rsp (s : State) : (s.resetEvent).rsp = s.rsp := rfl
@[simp] theorem State.resetEvent_arb (s : State) : (s.resetEvent).arb = s.arb := rfl
@[simp] theorem State.resetEvent_txAns (s : State) : (s.resetEvent).txAns = s.txAns := rfl
@[simp] theorem State.resetEvent_rxAns (s : State) : (s.resetEvent).rxAns = s.rxAns := rfl
@[simp] theorem State.resetEvent_env (s : State) : (s.resetEvent).env = s.env := rfl
@[simp] theorem State.resetEvent_draws (s : State) : (s.resetEvent).draws = s.draws + 1 := rfl

/-- `raise` is `Finish` (R112). -/
@[simp] theorem State.raise_eq_finish (e : OpOutcome) (s : State) : s.raise e = s.finish e := rfl

/-- The value a draw gives (R8). -/
@[simp] theorem State.draw_value (s : State) : s.draw.1 = Config.drawInt32 s.draws := rfl

/-! The accumulator operations on the registers (R71 to R74). -/

@[simp] theorem Regs.ckClr_cnt (r : Regs) : (r.ckClr).cnt = 0 := rfl
@[simp] theorem Regs.ckClr_op (r : Regs) : (r.ckClr).op = r.op := rfl
@[simp] theorem Regs.ckClr_owner (r : Regs) : (r.ckClr).owner = r.owner := rfl
@[simp] theorem Regs.ckClr_cmd (r : Regs) : (r.ckClr).cmd = r.cmd := rfl
@[simp] theorem Regs.ckClr_type (r : Regs) : (r.ckClr).type = r.type := rfl
@[simp] theorem Regs.ckClr_bank (r : Regs) : (r.ckClr).bank = r.bank := rfl
@[simp] theorem Regs.ckClr_value (r : Regs) : (r.ckClr).value = r.value := rfl
@[simp] theorem Regs.ckClr_st (r : Regs) : (r.ckClr).st = r.st := rfl
@[simp] theorem Regs.ckClr_rv (r : Regs) : (r.ckClr).rv = r.rv := rfl
@[simp] theorem Regs.ckClr_txf (r : Regs) : (r.ckClr).txf = r.txf := rfl
@[simp] theorem Regs.ckClr_rxf (r : Regs) : (r.ckClr).rxf = r.rxf := rfl
@[simp] theorem Regs.ckClr_acc (r : Regs) : (r.ckClr).acc = 0 := rfl
@[simp] theorem Regs.ckClr_ckok (r : Regs) : (r.ckClr).ckok = r.ckok := rfl

@[simp] theorem Regs.ckAdd_cnt (r : Regs) (b : Byte) : (r.ckAdd b).cnt = r.cnt + 1 := rfl
@[simp] theorem Regs.ckAdd_op (r : Regs) (b : Byte) : (r.ckAdd b).op = r.op := rfl
@[simp] theorem Regs.ckAdd_owner (r : Regs) (b : Byte) : (r.ckAdd b).owner = r.owner := rfl
@[simp] theorem Regs.ckAdd_cmd (r : Regs) (b : Byte) : (r.ckAdd b).cmd = r.cmd := rfl
@[simp] theorem Regs.ckAdd_type (r : Regs) (b : Byte) : (r.ckAdd b).type = r.type := rfl
@[simp] theorem Regs.ckAdd_bank (r : Regs) (b : Byte) : (r.ckAdd b).bank = r.bank := rfl
@[simp] theorem Regs.ckAdd_value (r : Regs) (b : Byte) : (r.ckAdd b).value = r.value := rfl
@[simp] theorem Regs.ckAdd_st (r : Regs) (b : Byte) : (r.ckAdd b).st = r.st := rfl
@[simp] theorem Regs.ckAdd_rv (r : Regs) (b : Byte) : (r.ckAdd b).rv = r.rv := rfl
@[simp] theorem Regs.ckAdd_txf (r : Regs) (b : Byte) : (r.ckAdd b).txf = r.txf := rfl
@[simp] theorem Regs.ckAdd_rxf (r : Regs) (b : Byte) : (r.ckAdd b).rxf = r.rxf := rfl
@[simp] theorem Regs.ckAdd_acc (r : Regs) (b : Byte) : (r.ckAdd b).acc = r.acc + b := rfl
@[simp] theorem Regs.ckAdd_ckok (r : Regs) (b : Byte) : (r.ckAdd b).ckok = r.ckok := rfl

@[simp] theorem Regs.ckEmit_cnt (r : Regs) : (r.ckEmit).cnt = r.cnt := rfl
@[simp] theorem Regs.ckEmit_op (r : Regs) : (r.ckEmit).op = r.op := rfl
@[simp] theorem Regs.ckEmit_owner (r : Regs) : (r.ckEmit).owner = r.owner := rfl
@[simp] theorem Regs.ckEmit_cmd (r : Regs) : (r.ckEmit).cmd = r.cmd := rfl
@[simp] theorem Regs.ckEmit_type (r : Regs) : (r.ckEmit).type = r.type := rfl
@[simp] theorem Regs.ckEmit_bank (r : Regs) : (r.ckEmit).bank = r.bank := rfl
@[simp] theorem Regs.ckEmit_value (r : Regs) : (r.ckEmit).value = r.value := rfl
@[simp] theorem Regs.ckEmit_st (r : Regs) : (r.ckEmit).st = r.st := rfl
@[simp] theorem Regs.ckEmit_rv (r : Regs) : (r.ckEmit).rv = r.rv := rfl
@[simp] theorem Regs.ckEmit_txf (r : Regs) : (r.ckEmit).txf = { r.txf with b8 := r.acc } := rfl
@[simp] theorem Regs.ckEmit_rxf (r : Regs) : (r.ckEmit).rxf = r.rxf := rfl
@[simp] theorem Regs.ckEmit_acc (r : Regs) : (r.ckEmit).acc = r.acc := rfl
@[simp] theorem Regs.ckEmit_ckok (r : Regs) : (r.ckEmit).ckok = r.ckok := rfl

@[simp] theorem Regs.ckCmp_cnt (r : Regs) (k : Byte) : (r.ckCmp k).cnt = r.cnt := rfl
@[simp] theorem Regs.ckCmp_op (r : Regs) (k : Byte) : (r.ckCmp k).op = r.op := rfl
@[simp] theorem Regs.ckCmp_owner (r : Regs) (k : Byte) : (r.ckCmp k).owner = r.owner := rfl
@[simp] theorem Regs.ckCmp_cmd (r : Regs) (k : Byte) : (r.ckCmp k).cmd = r.cmd := rfl
@[simp] theorem Regs.ckCmp_type (r : Regs) (k : Byte) : (r.ckCmp k).type = r.type := rfl
@[simp] theorem Regs.ckCmp_bank (r : Regs) (k : Byte) : (r.ckCmp k).bank = r.bank := rfl
@[simp] theorem Regs.ckCmp_value (r : Regs) (k : Byte) : (r.ckCmp k).value = r.value := rfl
@[simp] theorem Regs.ckCmp_st (r : Regs) (k : Byte) : (r.ckCmp k).st = r.st := rfl
@[simp] theorem Regs.ckCmp_rv (r : Regs) (k : Byte) : (r.ckCmp k).rv = r.rv := rfl
@[simp] theorem Regs.ckCmp_txf (r : Regs) (k : Byte) : (r.ckCmp k).txf = r.txf := rfl
@[simp] theorem Regs.ckCmp_rxf (r : Regs) (k : Byte) : (r.ckCmp k).rxf = r.rxf := rfl
@[simp] theorem Regs.ckCmp_acc (r : Regs) (k : Byte) : (r.ckCmp k).acc = r.acc := rfl
@[simp] theorem Regs.ckCmp_ckok (r : Regs) (k : Byte) : (r.ckCmp k).ckok = ckokOf r.acc k := rfl

end Sys2Proof.Machine
end

