-- ==== Sys2Proof/Laws/Ops.lean ====
section
/-! SUPPORT. For each shared operation, one lemma that says everything it can do. -/

namespace Sys2Proof.Machine

/-- `Finish` leaves what an ended operation leaves (R112). -/
theorem finish_ended (o : OpOutcome) (s : State) : Ended o s (s.finish o) :=
  ⟨rfl, rfl, rfl, rfl, rfl, rfl, rfl, rfl, rfl, rfl, rfl, rfl, rfl⟩

/-- How a store ends (R31): by the first of the transport's answers. -/
theorem memWrite_cases (b : Byte) (s : State) :
    (s.txAns = [] ∧ s.memWrite b = .waiting) ∨
    (∃ rest, s.txAns = .ok :: rest ∧ s.memWrite b = .done () { s with txAns := rest, txs := s.txs ++ [b] }) ∨
    (∃ cause took rest, s.txAns = .fail cause took :: rest ∧ s.memWrite b =
      .failed cause { s with txAns := rest, txs := if took then s.txs ++ [b] else s.txs }) := by
  unfold State.memWrite
  split
  · exact .inl ⟨‹_›, rfl⟩
  · exact .inr (.inl ⟨_, ‹_›, rfl⟩)
  · exact .inr (.inr ⟨_, _, _, ‹_›, rfl⟩)

/-- How a load ends (R33): by the first of the transport's answers, and the first byte it holds. -/
theorem memRead_cases (s : State) :
    ((s.rxAns = [] ∨ ∃ rest, s.rxAns = .deliver :: rest ∧ s.rxs = []) ∧ s.memRead = .waiting) ∨
    (∃ rest b bs, s.rxAns = .deliver :: rest ∧ s.rxs = b :: bs ∧
      s.memRead = .done b { s with rxAns := rest, rxs := bs }) ∨
    (∃ cause rest, s.rxAns = .fail cause :: rest ∧ s.memRead = .failed cause { s with rxAns := rest }) := by
  unfold State.memRead
  split
  · exact .inl ⟨.inl ‹_›, rfl⟩
  · exact .inr (.inr ⟨_, _, ‹_›, rfl⟩)
  · split
    · exact .inl ⟨.inr ⟨_, ‹_›, ‹_›⟩, rfl⟩
    · exact .inr (.inl ⟨_, _, _, ‹_›, ‹_›, rfl⟩)

/-- What one store of `WRITE` can do (R106). -/
theorem writeByte_cases (f : Frame) (s : State) :
    (9 ≤ s.regs.cnt.toNat ∧ writeByte f s = .fault .counterOutOfRange) ∨
    (s.regs.cnt.toNat ≤ 8 ∧
      ((s.txAns = [] ∧ writeByte f s = .next s) ∨
       (∃ rest, s.txAns = .ok :: rest ∧ s.regs.cnt.toNat = 8 ∧ writeByte f s = .next { s with
          txAns := rest, txs := s.txs ++ [f.get s.regs.cnt.toNat], regs := { s.regs with cnt := 0 }, phase := .read }) ∨
       (∃ rest, s.txAns = .ok :: rest ∧ s.regs.cnt.toNat < 8 ∧ writeByte f s = .next { s with
          txAns := rest, txs := s.txs ++ [f.get s.regs.cnt.toNat]
          regs := { s.regs with cnt := s.regs.cnt + 1 }, phase := .write }) ∨
       (∃ cause took rest, s.txAns = .fail cause took :: rest ∧ writeByte f s = .next
          (({ s with txAns := rest
                     txs := if took then s.txs ++ [f.get s.regs.cnt.toNat] else s.txs } : State).finish
            (.transportError .write cause))))) := by
  by_cases h9 : 9 ≤ s.regs.cnt.toNat
  · exact .inl ⟨h9, by simp [writeByte, h9]⟩
  · refine .inr ⟨by omega, ?_⟩
    rcases memWrite_cases (f.get s.regs.cnt.toNat) s with ⟨ha, hm⟩ | ⟨rest, ha, hm⟩ | ⟨c, took, rest, ha, hm⟩
    · exact .inl ⟨ha, by simp only [writeByte, h9, if_false, hm]⟩
    · by_cases h8 : s.regs.cnt.toNat = 8
      · exact .inr (.inl ⟨rest, ha, h8, by simp only [writeByte, h9, if_false, hm, if_pos h8]⟩)
      · exact .inr (.inr (.inl ⟨rest, ha, by omega, by simp only [writeByte, h9, if_false, hm, if_neg h8]⟩))
    · exact .inr (.inr (.inr ⟨c, took, rest, ha, by simp only [writeByte, h9, if_false, hm, State.raise_eq_finish]⟩))

/-- What one load of `READ` can do (R107). -/
theorem readByte_cases (s : State) :
    (9 ≤ s.regs.cnt.toNat ∧ readByte s = .fault .counterOutOfRange) ∨
    (s.regs.cnt.toNat ≤ 8 ∧
      (((s.rxAns = [] ∨ ∃ rest, s.rxAns = .deliver :: rest ∧ s.rxs = []) ∧ readByte s = .next s) ∨
       (∃ rest b bs, s.rxAns = .deliver :: rest ∧ s.rxs = b :: bs ∧ s.regs.cnt.toNat = 8 ∧ readByte s = .next { s with
          rxAns := rest, rxs := bs, regs := { s.regs with rxf := s.regs.rxf.set 8 b }, phase := .decode }) ∨
       (∃ rest b bs, s.rxAns = .deliver :: rest ∧ s.rxs = b :: bs ∧ s.regs.cnt.toNat < 8 ∧ readByte s = .next { s with
          rxAns := rest, rxs := bs
          regs := { s.regs with rxf := s.regs.rxf.set s.regs.cnt.toNat b, cnt := s.regs.cnt + 1 }, phase := .read }) ∨
       (∃ cause rest, s.rxAns = .fail cause :: rest ∧ readByte s = .next
          (({ s with rxAns := rest } : State).finish (.transportError .read cause))))) := by
  by_cases h9 : 9 ≤ s.regs.cnt.toNat
  · exact .inl ⟨h9, by simp [readByte, h9]⟩
  · refine .inr ⟨by omega, ?_⟩
    rcases memRead_cases s with ⟨ha, hm⟩ | ⟨rest, b, bs, ha, hb, hm⟩ | ⟨c, rest, ha, hm⟩
    · exact .inl ⟨ha, by simp only [readByte, h9, if_false, hm]⟩
    · by_cases h8 : s.regs.cnt.toNat = 8
      · exact .inr (.inl ⟨rest, b, bs, ha, hb, h8, by simp only [readByte, h9, if_false, hm, if_pos h8]⟩)
      · exact .inr (.inr (.inl ⟨rest, b, bs, ha, hb, by omega, by
          simp only [readByte, h9, if_false, hm, if_neg h8]⟩))
    · exact .inr (.inr (.inr ⟨c, rest, ha, by simp only [readByte, h9, if_false, hm, State.raise_eq_finish]⟩))

/-- What the grant can do (R101): nothing, or give the lock to the caller chosen. -/
theorem grant_cases (op : OpCode) (f : BitVec 58 → HostOperands) (s : State) :
    ((s.lock = true ∨ s.granted = none) ∧ s.grant op f = s) ∨
    (∃ caller w, s.lock = false ∧ s.granted = some (caller, w) ∧
      s.grant op f = { s with
        lock := true
        arb := s.arb.tail
        req := s.req.filter (fun r => r.1 != caller)
        regs := { s.regs with owner := caller, op := op, cmd := (f w).cmd, type := (f w).type,
                              bank := (f w).bank, value := (f w).value }
        phase := match op with
          | .exec => .chkconn
          | .attach => .sys
          | .detach => .sys }) := by
  unfold State.grant
  cases hl : s.lock
  · simp only [Bool.false_eq_true, if_false]
    split
    · exact .inl ⟨.inr ‹_›, rfl⟩
    · exact .inr ⟨_, _, trivial, ‹_›, rfl⟩
  · exact .inl ⟨.inl rfl, by simp⟩

/-- Which request is granted (R101): the one pending on the port of the arbiter's next choice. -/
theorem granted_eq_some (s : State) (caller : Nat) (w : BitVec 58) :
    s.granted = some (caller, w) ↔ ∃ rest, s.arb = caller :: rest ∧ s.requestOf caller = some w := by
  unfold State.granted
  cases s.arb with
  | nil => simp
  | cons c rest =>
    simp only [List.cons.injEq, Option.map_eq_some_iff, Prod.mk.injEq]
    constructor
    · rintro ⟨v, hv, rfl, rfl⟩
      exact ⟨rest, ⟨rfl, rfl⟩, hv⟩
    · rintro ⟨r, ⟨rfl, rfl⟩, hv⟩
      exact ⟨w, hv, rfl, rfl⟩

/-- The accumulation touches `ACC` and `CNT` alone (R72, R75). -/
theorem ckRun_frame (r : Regs) (span : List Byte) :
    r.ckRun span = { r with acc := (r.ckRun span).acc, cnt := (r.ckRun span).cnt } := by
  have h : ∀ (l : List Byte) (q : Regs),
      l.foldl Regs.ckAdd q = { q with acc := (l.foldl Regs.ckAdd q).acc, cnt := (l.foldl Regs.ckAdd q).cnt } := by
    intro l
    induction l with
    | nil => intro q; rfl
    | cons b l ih => intro q; rw [List.foldl_cons, ih]; rfl
  unfold Regs.ckRun
  rw [h span r.ckClr]
  rfl

/-- What a step is: an event of the environment, or an action of the block (R123). -/
theorem step_cases (s : State) :
    (s.env = [] ∧ step s = blockStep s) ∨
    (∃ rest, s.env = .block :: rest ∧ step s = blockStep { s with env := rest }) ∨
    (∃ e rest, s.env = e :: rest ∧ e ≠ .block ∧
      step s = .next (({ s with env := rest } : State).environment e)) := by
  unfold step
  split
  · exact .inl ⟨‹_›, rfl⟩
  · exact .inr (.inl ⟨_, ‹_›, rfl⟩)
  · rename_i e rest hne heq
    exact .inr (.inr ⟨e, rest, heq, hne, rfl⟩)

/-! Runs. -/

/-- A run from its first step on. -/
theorem runSteps_step {s t : State} (h : step s = .next t) (n : Nat) : runSteps (n + 1) s = runSteps n t := by
  rw [runSteps, h]

/-- A run in two parts. -/
theorem runSteps_add (m n : Nat) : ∀ {s t : State}, runSteps m s = .next t → runSteps (m + n) s = runSteps n t := by
  induction m with
  | zero => intro s t h; cases h; rw [Nat.zero_add]
  | succ m ih =>
    intro s t h
    rw [runSteps] at h
    split at h
    · rename_i u hs
      rw [Nat.succ_add, runSteps_step hs, ih h]
    · cases h
    · cases h

theorem Reaches.refl (s : State) : Reaches s s := ⟨0, rfl⟩

theorem Reaches.step {s t : State} (h : step s = .next t) : Reaches s t := ⟨1, by rw [runSteps_step h]; rfl⟩

theorem Reaches.trans {s t u : State} (h : Reaches s t) (k : Reaches t u) : Reaches s u := by
  obtain ⟨m, hm⟩ := h
  obtain ⟨n, hn⟩ := k
  exact ⟨m + n, by rw [runSteps_add m n hm, hn]⟩

theorem Eventually.now {P : State → Prop} {s : State} (h : P s) : Eventually P s := ⟨s, Reaches.refl s, h⟩

/-- What comes after steps already taken comes. -/
theorem Eventually.of_reaches {P : State → Prop} {s t : State} (h : Reaches s t) (k : Eventually P t) :
    Eventually P s := by
  obtain ⟨u, hu, hp⟩ := k
  exact ⟨u, h.trans hu, hp⟩

/-- The premises of liveness claims go over to every later state of the run (R5). -/
theorem premises_reach {s t : State} (h : Reaches s t) :
    (ArbFair s → ArbFair t) ∧ (WritePrompt s → WritePrompt t) ∧ (ReadBounded s → ReadBounded t) :=
  ⟨fun a u hu => a u (h.trans hu), fun a u hu => a u (h.trans hu), fun a u hu => a u (h.trans hu)⟩

/-- What a run comes to is its first state or comes after its first step. -/
theorem reaches_cases {s t u : State} (h : step s = .next t) (k : Reaches s u) : u = s ∨ Reaches t u := by
  obtain ⟨n, hn⟩ := k
  cases n with
  | zero => cases hn; exact .inl rfl
  | succ n => rw [runSteps_step h] at hn; exact .inr ⟨n, hn⟩

/-- In a state that steps to itself nothing else comes. -/
theorem reaches_self {s : State} (h : step s = .next s) {t : State} (k : Reaches s t) : t = s := by
  obtain ⟨n, hn⟩ := k
  induction n with
  | zero => cases hn; rfl
  | succ n ih => rw [runSteps_step h] at hn; exact ih hn

end Sys2Proof.Machine
end

