-- ==== Sys2Proof/Laws/PerInstr.lean ====
section
/-! SUPPORT. One law for each row of the opcode table: the encoder writes the bits the table fixes. -/

namespace Sys2Proof.Laws

/-- The encoded bits as one number, numbered as the opcode table numbers them (R7, R62). -/
def rawWord : Raw → Nat
  | .request w => w
  | .tx bytes => (bytes.foldl (fun n b => n * 256 + b.toNat) 0)
  | .rx bytes => (bytes.foldl (fun n b => n * 256 + b.toNat) 0)

/-- How many bits the table gives a format (R50, R51, R56). -/
def rawWidth : Raw → Nat
  | .request _ => 58
  | .tx _ => 72
  | .rx _ => 72

/-- The fields the table fixes for a row: lowest bit, width, content (R50, R53, R56). -/
def fixedFields : Instr → List (Nat × Nat × Nat)
  | .exec _ _ _ _ => [(56, 2, 0)]
  | .attach => [(56, 2, 1)]
  | .detach => [(56, 2, 2)]
  | .hreqReserved => [(56, 2, 3)]
  | .cmdf _ _ _ _ => [(64, 8, 2)]
  | .rplOk100 _ _ _ _ => [(48, 8, 100)]
  | .rplOk101 _ _ _ _ => [(48, 8, 101)]
  | .rplErr1 _ _ _ _ => [(48, 8, 1)]
  | .rplErr2 _ _ _ _ => [(48, 8, 2)]
  | .rplErr3 _ _ _ _ => [(48, 8, 3)]
  | .rplErr4 _ _ _ _ => [(48, 8, 4)]
  | .rplErr5 _ _ _ _ => [(48, 8, 5)]
  | .rplErr6 _ _ _ _ => [(48, 8, 6)]
  | .rplUnknown _ _ status _ _ => [(48, 8, status.toNat)]
  | .rplBadck _ _ status _ _ checksum => [(48, 8, status.toNat), (0, 8, checksum.toNat)]
  | .cksum _ => []
  | .valid _ => []
  | .ckClr => []
  | .ckAdd _ => []
  | .ckEmit => []
  | .ckCmp => []
  | .pack32 _ => []
  | .unpack32 _ _ _ _ => []
  | .encode _ _ _ _ => []
  | .decode _ => []
  | .classify _ _ => []
  | .rotateRight motor _ => [(56, 2, 0), (48, 8, 1), (40, 8, 0), (32, 8, motor.toNat)]

/-- What the encoder writes for a well-formed row fits the format and has the fixed fields. -/
def FixedBits.Statement (i : Instr) : Prop :=
  i.wellFormed = true → ∀ r, encode i = some r →
    rawWord r < 2 ^ rawWidth r ∧
    ∀ p ∈ fixedFields i, rawWord r / 2 ^ p.1 % 2 ^ p.2.1 = p.2.2

/-- The fields of a request word as numbers (R56). -/
theorem requestWord_toNat (op : BitVec 2) (cmd type bank : Byte) (value : Value) :
    (requestWord op cmd type bank value).toNat =
      op.toNat * 2 ^ 56 + cmd.toNat * 2 ^ 48 + type.toNat * 2 ^ 40 + bank.toNat * 2 ^ 32 + value.toNat := by
  unfold requestWord
  simp only [BitVec.toNat_append]
  rw [← Nat.shiftLeft_add_eq_or_of_lt value.isLt, ← Nat.shiftLeft_add_eq_or_of_lt bank.isLt,
    ← Nat.shiftLeft_add_eq_or_of_lt type.isLt, ← Nat.shiftLeft_add_eq_or_of_lt cmd.isLt]
  simp only [Nat.shiftLeft_eq]
  omega

/-- A request word has its format's width and its `op` field (R56). -/
theorem requestWord_fields (op : BitVec 2) (cmd type bank : Byte) (value : Value) :
    (requestWord op cmd type bank value).toNat < 2 ^ 58 ∧
    (requestWord op cmd type bank value).toNat / 2 ^ 56 % 2 ^ 2 = op.toNat ∧
    (requestWord op cmd type bank value).toNat / 2 ^ 48 % 2 ^ 8 = cmd.toNat ∧
    (requestWord op cmd type bank value).toNat / 2 ^ 40 % 2 ^ 8 = type.toNat ∧
    (requestWord op cmd type bank value).toNat / 2 ^ 32 % 2 ^ 8 = bank.toNat := by
  rw [requestWord_toNat]
  have h1 := op.isLt; have h2 := cmd.isLt; have h3 := type.isLt; have h4 := bank.isLt; have h5 := value.isLt
  refine ⟨by omega, by omega, by omega, by omega, by omega⟩

/-- The bytes of a frame as one number have the format's width, and bytes 0, 2 and 8 at the table's places (R7). -/
theorem frameWord_fields (f : Frame) :
    f.bytes.foldl (fun n b => n * 256 + b.toNat) 0 < 2 ^ 72 ∧
    f.bytes.foldl (fun n b => n * 256 + b.toNat) 0 / 2 ^ 64 % 2 ^ 8 = f.b0.toNat ∧
    f.bytes.foldl (fun n b => n * 256 + b.toNat) 0 / 2 ^ 48 % 2 ^ 8 = f.b2.toNat ∧
    f.bytes.foldl (fun n b => n * 256 + b.toNat) 0 / 2 ^ 0 % 2 ^ 8 = f.b8.toNat := by
  simp only [Frame.bytes, List.foldl_cons, List.foldl_nil]
  have h0 := f.b0.isLt; have h1 := f.b1.isLt; have h2 := f.b2.isLt; have h3 := f.b3.isLt; have h4 := f.b4.isLt
  have h5 := f.b5.isLt; have h6 := f.b6.isLt; have h7 := f.b7.isLt; have h8 := f.b8.isLt
  refine ⟨by omega, by omega, by omega, by omega⟩

/-- The law for a request whose only fixed field is `op`. -/
theorem fixed_of_request (i : Instr) (op : BitVec 2) (cmd type bank : Byte) (value : Value)
    (he : encode i = some (.request (requestWord op cmd type bank value).toNat))
    (hf : fixedFields i = [(56, 2, op.toNat)]) : FixedBits.Statement i := by
  intro _ r hr
  rw [he] at hr
  obtain rfl := Option.some.inj hr
  have h := requestWord_fields op cmd type bank value
  exact ⟨h.1, by rw [hf]; intro p hp; rw [List.mem_singleton] at hp; subst hp; exact h.2.1⟩

/-- The law for a reply with a good checksum. -/
theorem fixed_of_reply (i : Instr) (a m st e : Byte) (v : Value)
    (he : encode i = some (encodeReply a m st e v)) (hf : fixedFields i = [(48, 8, st.toNat)]) :
    FixedBits.Statement i := by
  intro _ r hr
  rw [he] at hr
  obtain rfl := Option.some.inj hr
  have h := frameWord_fields (sealedFrame a m st e v)
  exact ⟨h.1, by rw [hf]; intro p hp; rw [List.mem_singleton] at hp; subst hp; exact h.2.2.1⟩

/-- The law for a row that is not encoded (R62). -/
theorem fixed_of_none (i : Instr) (he : encode i = none) : FixedBits.Statement i := by
  intro _ r hr
  rw [he] at hr
  cases hr

namespace FixedBits

theorem exec (cmd type bank : Byte) (value : Value) : Statement (.exec cmd type bank value) :=
  fixed_of_request _ 0 cmd type bank value rfl rfl
theorem attach : Statement .attach := fixed_of_request _ 1 0 0 0 0 rfl rfl
theorem detach : Statement .detach := fixed_of_request _ 2 0 0 0 0 rfl rfl
theorem hreqReserved : Statement .hreqReserved := fixed_of_request _ 3 0 0 0 0 rfl rfl
theorem cmdf (cmd type bank : Byte) (value : Value) : Statement (.cmdf cmd type bank value) := by
  intro _ r hr
  obtain rfl := Option.some.inj hr
  have h := frameWord_fields (encodeFrame Config.address cmd type bank value)
  exact ⟨h.1, by intro p hp; rw [fixedFields, List.mem_singleton] at hp; subst hp; exact h.2.1⟩
theorem rplOk100 (a m e : Byte) (v : Value) : Statement (.rplOk100 a m e v) := fixed_of_reply _ a m 100 e v rfl rfl
theorem rplOk101 (a m e : Byte) (v : Value) : Statement (.rplOk101 a m e v) := fixed_of_reply _ a m 101 e v rfl rfl
theorem rplErr1 (a m e : Byte) (v : Value) : Statement (.rplErr1 a m e v) := fixed_of_reply _ a m 1 e v rfl rfl
theorem rplErr2 (a m e : Byte) (v : Value) : Statement (.rplErr2 a m e v) := fixed_of_reply _ a m 2 e v rfl rfl
theorem rplErr3 (a m e : Byte) (v : Value) : Statement (.rplErr3 a m e v) := fixed_of_reply _ a m 3 e v rfl rfl
theorem rplErr4 (a m e : Byte) (v : Value) : Statement (.rplErr4 a m e v) := fixed_of_reply _ a m 4 e v rfl rfl
theorem rplErr5 (a m e : Byte) (v : Value) : Statement (.rplErr5 a m e v) := fixed_of_reply _ a m 5 e v rfl rfl
theorem rplErr6 (a m e : Byte) (v : Value) : Statement (.rplErr6 a m e v) := fixed_of_reply _ a m 6 e v rfl rfl
theorem rplUnknown (a m st e : Byte) (v : Value) : Statement (.rplUnknown a m st e v) :=
  fixed_of_reply _ a m st e v rfl rfl
theorem rplBadck (a m st e : Byte) (v : Value) (k : Byte) : Statement (.rplBadck a m st e v k) := by
  intro _ r hr
  obtain rfl := Option.some.inj hr
  have h := frameWord_fields (frameWith a m st e v k)
  refine ⟨h.1, ?_⟩
  intro p hp
  simp only [fixedFields, List.mem_cons, List.not_mem_nil, or_false] at hp
  rcases hp with rfl | rfl
  · exact h.2.2.1
  · exact h.2.2.2
theorem cksum (span : List Byte) : Statement (.cksum span) := fixed_of_none _ rfl
theorem valid (f : Frame) : Statement (.valid f) := fixed_of_none _ rfl
theorem ckClr : Statement .ckClr := fixed_of_none _ rfl
theorem ckAdd (b : Byte) : Statement (.ckAdd b) := fixed_of_none _ rfl
theorem ckEmit : Statement .ckEmit := fixed_of_none _ rfl
theorem ckCmp : Statement .ckCmp := fixed_of_none _ rfl
theorem pack32 (v : Value) : Statement (.pack32 v) := fixed_of_none _ rfl
theorem unpack32 (p0 p1 p2 p3 : Byte) : Statement (.unpack32 p0 p1 p2 p3) := fixed_of_none _ rfl
theorem encode (cmd type bank : Byte) (value : Value) : Statement (.encode cmd type bank value) :=
  fixed_of_none _ rfl
theorem decode (f : Frame) : Statement (.decode f) := fixed_of_none _ rfl
theorem classify (status : Byte) (v : Value) : Statement (.classify status v) := fixed_of_none _ rfl
theorem rotateRight (motor : Byte) (velocity : Value) : Statement (.rotateRight motor velocity) := by
  intro _ r hr
  obtain rfl := Option.some.inj hr
  have h := requestWord_fields 0 1 0 motor velocity
  refine ⟨h.1, ?_⟩
  intro p hp
  simp only [fixedFields, List.mem_cons, List.not_mem_nil, or_false] at hp
  rcases hp with rfl | rfl | rfl | rfl
  · exact h.2.1
  · exact h.2.2.1
  · exact h.2.2.2.1
  · exact h.2.2.2.2

end FixedBits

end Sys2Proof.Laws
end

