-- ==== Sys2Proof/Tests/Slice0.lean ====
section
/-! SUPPORT. Tests on single operations, and for every statement with hypotheses a state that meets them.
Expected results are the spec's: `V<n>` and `P<n>` are of 95_test_vectors.md. -/

namespace Sys2Proof.Tests

open Sys2Proof.Machine

/-! Small states. -/

def params : Params := { addr := 0x02, connAtReset := false, otherCallers := 2, causeW := 8, tracePresent := true }

/-- The block idle and detached. -/
def idle : State := State.resetWith params

/-- Caller 1 holds the request word `w`, and the arbiter chooses it. -/
def asked (w : BitVec 58) : State := { idle with arb := [1], req := [(1, w)] }

/-- The request word of `EXEC 1, 0, 1, 500`, bit by bit (R56). -/
def word500 : BitVec 58 := 0b00_00000001_00000000_00000001_00000000000000000000000111110100

/-- V21. -/
def command : Frame := ⟨0x02, 0x01, 0x00, 0x01, 0x00, 0x00, 0x01, 0xF4, 0xF9⟩

/-- V29. -/
def reply : Frame := ⟨0x02, 0x01, 0x64, 0x01, 0x00, 0x00, 0x00, 0x00, 0x68⟩

/-- V41: the checksum should be `68`. -/
def badReply : Frame := { reply with b8 := 0x69 }

/-- V35e: status 5 with the value 1234. -/
def lockedReply : Frame := ⟨0x02, 0x01, 0x05, 0x05, 0x00, 0x00, 0x04, 0xD2, 0xE3⟩

/-- Caller 1's `EXEC 1, 0, 1, 500` in flight, in phase `p` with counter `n`, the received bytes `g` decoded. -/
def flying (p : Phase) (n : BitVec 4) (g : Frame) : State :=
  { idle with
    conn := true, lock := true, phase := p
    regs := { Regs.zero with
      owner := 1, cmd := 1, type := 0, bank := 1, value := 500, cnt := n, txf := command, rxf := g
      ckok := g.valid, st := g.b2, rv := g.value } }

/-- Caller 1's `ATTACH` or `DETACH` holds the lock. -/
def inSys (op : OpCode) (conn : Bool) : State :=
  { idle with conn := conn, lock := true, phase := .sys, regs := { Regs.zero with owner := 1, op := op } }

/-- What a next state holds, by `f`. -/
def after {α : Type} (r : Res) (f : State → α) : Option α :=
  match r with
  | .next t => some (f t)
  | .fault _ => none
  | .refused _ => none

/-- What an ended operation shows: the responses, the lock, the phase, `CONN`, the bytes sent. -/
def shown (t : State) : List (Nat × Response) × Bool × Phase × Bool × List Byte :=
  (t.rsp, t.lock, t.phase, t.conn, t.txs)

/-- The end of caller 1's `EXEC` with this response word and nothing sent in the last step. -/
def endsWith (w : BitVec 44) : Option (List (Nat × Response) × Bool × Phase × Bool × List Byte) :=
  some ([(1, ⟨w, 0⟩)], false, .idle, true, [])

/-! Ill-formed terms are refused (R75, R98, R110). -/

theorem test_wellFormed_refuses :
    (Instr.rplUnknown 2 1 100 1 0).wellFormed = false ∧ (Instr.rplUnknown 2 1 6 1 0).wellFormed = false ∧
    (Instr.rplBadck 2 1 100 1 0 0x68).wellFormed = false ∧
    (Instr.cksum [1, 2, 3, 4, 5, 6, 7, 8, 9]).wellFormed = false := by decide

theorem test_wellFormed_accepts :
    (Instr.rplUnknown 2 1 102 1 0).wellFormed = true ∧ (Instr.rplBadck 2 1 100 1 0 0x69).wellFormed = true ∧
    (Instr.cksum [1, 2, 3, 4, 5, 6, 7, 8]).wellFormed = true := by decide

/-! Decoding: words written out from R50, R51 and R56. -/

theorem test_decode_requests :
    decode (.request word500.toNat) = .ok (.exec 1 0 1 500) ∧
    decode (.request 0b00_11111111_00000110_00000001_11111111111111111111111000001100) = .ok (.exec 255 6 1 (-500)) ∧
    decode (.request 0b01_00000000_00000000_00000000_00000000000000000000000000000000) = .ok .attach ∧
    decode (.request 0b01_10101010_00000001_11110000_00000000000000000000000000000111) = .ok .attach ∧
    decode (.request 0b10_00000000_00000000_00000000_00000000000000000000000000000000) = .ok .detach ∧
    decode (.request 0b11_00000000_00000000_00000000_00000000000000000000000000000001) = .ok .hreqReserved := by decide

theorem test_decode_frames :
    decode (.tx [0b00000010, 0b00000001, 0b00000000, 0b00000001, 0b00000000, 0b00000000, 0b00000001, 0b11110100,
      0b11111001]) = .ok (.cmdf 1 0 1 500) ∧
    decode (.rx [0b00000010, 0b00000001, 0b01100101, 0b00000101, 0b00000000, 0b00000000, 0b00000000, 0b00000111,
      0b01110100]) = .ok (.rplOk101 2 1 5 7) ∧
    decode (.rx reply.bytes) = .ok (.rplOk100 2 1 1 0) ∧
    decode (.rx [0x02, 0x01, 0x01, 0x01, 0x00, 0x00, 0x00, 0x00, 0x05]) = .ok (.rplErr1 2 1 1 0) ∧
    decode (.rx [0x02, 0x01, 0x02, 0x63, 0x00, 0x00, 0x00, 0x00, 0x68]) = .ok (.rplErr2 2 1 0x63 0) ∧
    decode (.rx [0x02, 0x01, 0x03, 0x01, 0x00, 0x00, 0x00, 0x00, 0x07]) = .ok (.rplErr3 2 1 1 0) := by decide

theorem test_decode_replies :
    decode (.rx [0x02, 0x01, 0x04, 0x01, 0x00, 0x00, 0x00, 0x00, 0x08]) = .ok (.rplErr4 2 1 1 0) ∧
    decode (.rx lockedReply.bytes) = .ok (.rplErr5 2 1 5 1234) ∧
    decode (.rx [0x02, 0x01, 0x06, 0x01, 0x00, 0x00, 0x00, 0x00, 0x0A]) = .ok (.rplErr6 2 1 1 0) ∧
    decode (.rx [0x02, 0x01, 0xFF, 0x01, 0xFF, 0xFF, 0xFF, 0xFF, 0xFF]) = .ok (.rplUnknown 2 1 255 1 (-1)) ∧
    decode (.rx [0x00, 0x00, 0x00, 0x00, 0x00, 0x00, 0x00, 0x00, 0x00]) = .ok (.rplUnknown 0 0 0 0 0) ∧
    decode (.rx badReply.bytes) = .ok (.rplBadck 2 1 100 1 0 0x69) := by decide

/-- Bits that are no operation are rejected by name (R50, R56, R61). -/
theorem test_decode_rejects :
    decode (.request (2 ^ 58)) = .error .requestTooWide ∧ decode (.rx [0x02, 0x01]) = .error .wrongLength ∧
    decode (.tx [0x03, 0x00, 0x00, 0x00, 0x00, 0x00, 0x00, 0x00, 0x03]) = .error .notTheAddress ∧
    decode (.tx [0x02, 0x00, 0x00, 0x00, 0x00, 0x00, 0x00, 0x00, 0x03]) = .error .badChecksum := by decide

/-- The words of R56, R50 and R51 as the opcode table numbers them. -/
theorem test_decodeTableWord :
    decodeTableWord 64 0x0010001000001F4 = some (.exec 1 0 1 500) ∧
    decodeTableWord 64 0x200000000000000 = some .detach ∧
    decodeTableWord 72 0x02010001000001F4F9 = some (.cmdf 1 0 1 500) ∧
    decodeTableWord 72 0x000064000000000064 = some (.rplOk100 0 0 0 0) ∧
    decodeTableWord 72 0x020164010000000069 = some (.rplBadck 2 1 100 1 0 0x69) ∧
    decodeTableWord 0 0 = none := by decide

/-- What `withFetchWord` places is what the next step runs. -/
theorem test_withFetchWord :
    after (step (State.reset.withFetchWord 64 0x0010001000001F4)) (fun t => (t.phase, t.regs.cmd, t.regs.value)) =
      some (.chkconn, 1, 500) ∧
    after (step (State.reset.withFetchWord 64 0x100000000000000)) (fun t => (t.phase, t.regs.op)) =
      some (.sys, .attach) ∧
    step (State.reset.withFetchWord 64 0x300000000000000) = .refused .reservedRequest ∧
    after (step (State.reset.withFetchWord 72 0x02010001000001F4F9)) (fun t => t.txs) = some [0x02] ∧
    after (step (State.reset.withFetchWord 72 0x000064000000000064)) (fun t => (t.phase, t.rsp.map (fun r => r.2.word))) =
      some (.idle, [0]) := ⟨rfl, rfl, rfl, rfl, rfl⟩

/-! The codec. -/

/-- Spans and sums of 95_test_vectors.md section 2.1 and V12. -/
theorem test_cksum :
    checksum [0x02, 0x01, 0x00, 0x01, 0x00, 0x00, 0x01, 0xF4] = 0xF9 ∧
    checksum [0x02, 0xFF, 0xFF, 0xFF, 0xFF, 0xFF, 0xFF, 0xFF] = 0xFB ∧
    after (exec (.cksum [0x02, 0xFF, 0xFF]) idle) (fun t => (t.regs.acc, t.regs.cnt)) = some (0x00, 3) := by decide

/-- V9, V10, V11a, V11c, V11d. -/
theorem test_valid :
    reply.valid = true ∧ ({ reply with b7 := 0x01 } : Frame).valid = false ∧
    (⟨0x02, 0x64, 0x01, 0x01, 0x00, 0x00, 0x00, 0x00, 0x68⟩ : Frame).valid = true ∧
    (⟨0xFF, 0xFF, 0xFF, 0xFF, 0xFF, 0xFF, 0xFF, 0xFF, 0xFF⟩ : Frame).valid = false ∧
    after (exec (.valid ⟨0xFF, 0xFF, 0xFF, 0xFF, 0xFF, 0xFF, 0xFF, 0xFF, 0xF8⟩) idle) (fun t => t.regs.ckok) =
      some true := by decide

/-- V12, its second step, and its last two. -/
theorem test_accumulator :
    after (exec (.ckAdd 0xFF) { idle with regs := { Regs.zero with acc := 0x02, cnt := 1 } })
      (fun t => (t.regs.acc, t.regs.cnt)) = some (0x01, 2) ∧
    after (exec .ckClr { idle with regs := { Regs.zero with acc := 0x02, cnt := 1 } })
      (fun t => (t.regs.acc, t.regs.cnt)) = some (0, 0) ∧
    after (exec .ckEmit { idle with regs := { Regs.zero with acc := 0xFB } }) (fun t => t.regs.txf.b8) = some 0xFB ∧
    after (exec .ckCmp { idle with regs := { Regs.zero with acc := 0xFB, rxf := { reply with b8 := 0xFB } } })
      (fun t => t.regs.ckok) = some true ∧
    after (exec .ckCmp { idle with regs := { Regs.zero with acc := 0xFB, rxf := { reply with b8 := 0xFA } } })
      (fun t => t.regs.ckok) = some false := by decide

/-- V15 to V19. -/
theorem test_value :
    packValue (-1) = (0xFF, 0xFF, 0xFF, 0xFF) ∧ packValue (BitVec.ofInt 32 (-2147483648)) = (0x80, 0, 0, 0) ∧
    packValue 2147483647 = (0x7F, 0xFF, 0xFF, 0xFF) ∧ packValue (-500) = (0xFF, 0xFF, 0xFE, 0x0C) ∧
    packValue 65536 = (0, 1, 0, 0) ∧ (unpackValue 0xFF 0xFF 0xFE 0x0C).toInt = -500 ∧
    after (exec (.pack32 500) idle) (fun t => (t.regs.txf.b6, t.regs.txf.b7)) = some (0x01, 0xF4) ∧
    after (exec (.unpack32 0x80 0 0 0) idle) (fun t => t.regs.rv.toInt) = some (-2147483648) := by decide

/-- V21 to V26 and V28. -/
theorem test_encode :
    encodeFrame 0x02 1 0 1 500 = command ∧
    encodeFrame 0x02 0 0 0 0 = ⟨0x02, 0, 0, 0, 0, 0, 0, 0, 0x02⟩ ∧
    encodeFrame 0x02 255 255 255 (-1) = ⟨0x02, 0xFF, 0xFF, 0xFF, 0xFF, 0xFF, 0xFF, 0xFF, 0xFB⟩ ∧
    encodeFrame 0x02 1 0 1 (-500) = ⟨0x02, 0x01, 0x00, 0x01, 0xFF, 0xFF, 0xFE, 0x0C, 0x0C⟩ ∧
    encodeFrame 0x02 6 1 0 (BitVec.ofInt 32 (-2147483648)) = ⟨0x02, 6, 1, 0, 0x80, 0, 0, 0, 0x89⟩ ∧
    encodeFrame 0x02 5 4 2 2147483647 = ⟨0x02, 5, 4, 2, 0x7F, 0xFF, 0xFF, 0xFF, 0x89⟩ ∧
    after (exec (.encode 1 0 1 256) idle) (fun t => (t.regs.txf, t.phase)) =
      some (⟨0x02, 1, 0, 1, 0, 0, 1, 0, 0x05⟩, .tsend) := by decide

/-- V36, V39, V41, V45. -/
theorem test_decode_op :
    decodeFrame ⟨0x02, 0x01, 0x64, 0x06, 0xFF, 0xFF, 0xFF, 0xFF, 0x69⟩ = some (100, -1) ∧
    decodeFrame ⟨0x02, 0x01, 0x64, 0x06, 0xFF, 0xFF, 0xFE, 0x0C, 0x75⟩ = some (100, -500) ∧
    decodeFrame badReply = none ∧ decodeFrame command = some (0, 500) ∧
    after (exec (.decode lockedReply) idle) (fun t => (t.regs.ckok, t.regs.st, t.regs.rv, t.phase)) =
      some (true, 5, 1234, .trecv) := by decide

/-- Response words of V36, V35e, V31, and the failures of R57. -/
theorem test_classify :
    after (exec (.classify 100 (-1)) (flying .classify 8 reply)) shown = endsWith 0x000_FFFFFFFF ∧
    after (exec (.classify 5 1234) (flying .classify 8 reply)) shown = endsWith 0x805_00000000 ∧
    after (exec (.classify 102 0) (flying .classify 8 reply)) shown = endsWith 0x866_00000000 ∧
    (OpOutcome.notConnected.response 8).word = 0x200_00000000 ∧
    (OpOutcome.transportError .write 0x1FF).response 8 = ⟨0x400_00000000, 0xFF⟩ ∧
    (OpOutcome.transportError .read 7).response 8 = ⟨0x500_00000000, 7⟩ :=
  ⟨rfl, rfl, rfl, rfl, rfl, rfl⟩

/-! The reply rows, each on the reply of V29 to V41 with its status (R90 to R98, R110). -/

theorem test_reply_rows :
    after (exec (.rplOk100 2 1 6 (-500)) (flying .classify 8 reply)) shown = endsWith 0x000_FFFFFE0C ∧
    after (exec (.rplOk101 2 1 5 7) (flying .classify 8 reply)) shown = endsWith 0x000_00000007 ∧
    after (exec (.rplErr1 2 1 1 9) (flying .classify 8 reply)) shown = endsWith 0x801_00000000 ∧
    after (exec (.rplErr2 2 1 1 9) (flying .classify 8 reply)) shown = endsWith 0x802_00000000 ∧
    after (exec (.rplErr3 2 1 1 9) (flying .classify 8 reply)) shown = endsWith 0x803_00000000 :=
  ⟨rfl, rfl, rfl, rfl, rfl⟩

theorem test_reply_rows_2 :
    after (exec (.rplErr4 2 1 1 9) (flying .classify 8 reply)) shown = endsWith 0x804_00000000 ∧
    after (exec (.rplErr5 2 1 5 1234) (flying .classify 8 reply)) shown = endsWith 0x805_00000000 ∧
    after (exec (.rplErr6 2 1 1 9) (flying .classify 8 reply)) shown = endsWith 0x806_00000000 ∧
    after (exec (.rplUnknown 2 1 99 1 0) (flying .classify 8 reply)) shown = endsWith 0x863_00000000 ∧
    after (exec (.rplBadck 2 1 100 1 0 0x69) (flying .classify 8 reply)) shown = endsWith 0x600_00000000 :=
  ⟨rfl, rfl, rfl, rfl, rfl⟩

/-! The host operations, one step each (R101 to R111, R120, R121). -/

theorem test_exec_grant :
    after (exec (.exec 1 0 1 500) (asked word500)) (fun t => (t.lock, t.phase, t.regs.owner, t.req, t.arb)) =
      some (true, .chkconn, 1, [], []) ∧
    exec (.exec 1 0 1 500) { asked word500 with lock := true, phase := .sys } =
      .next { asked word500 with lock := true, phase := .sys } :=
  ⟨rfl, rfl⟩

/-- V46, V48, V51: the three ends of an exchange with no reply. -/
theorem test_exec_fails :
    after (exec (.exec 1 0 1 500) { flying .chkconn 0 reply with conn := false }) (fun t => (t.rsp, t.txs)) =
      some ([(1, ⟨0x200_00000000, 0⟩)], []) ∧
    after (exec (.exec 1 0 1 500) { flying .write 3 reply with txs := [2, 1, 0], txAns := [.fail 9 true] })
      (fun t => (t.rsp, t.txs, t.phase)) = some ([(1, ⟨0x400_00000000, 9⟩)], [2, 1, 0, 1], .idle) ∧
    after (exec (.exec 1 0 1 500) { flying .read 4 reply with rxAns := [.fail 9], rxs := [5] })
      (fun t => (t.rsp, t.rxs, t.phase)) = some ([(1, ⟨0x500_00000000, 9⟩)], [5], .idle) := by decide

/-- V57, V59. -/
theorem test_attach_detach :
    after (exec .attach (inSys .attach false)) (fun t => (t.conn, t.lock, t.rsp)) = some (true, false, [(1, ⟨0, 0⟩)]) ∧
    after (exec .detach (inSys .detach true)) (fun t => (t.conn, t.lock, t.rsp)) = some (false, false, [(1, ⟨0, 0⟩)]) := by
  decide

theorem test_reserved : exec .hreqReserved idle = .refused .reservedRequest := rfl

/-- The ninth store of V54. -/
theorem test_cmdf :
    after (exec (.cmdf 1 0 1 500) { flying .write 8 reply with txAns := [.ok] }) (fun t => (t.txs, t.regs.cnt, t.phase)) =
      some ([0xF9], 0, .read) := by decide

/-- R131. -/
theorem test_rotateRight :
    after (exec (.rotateRight 1 500) (flying .encode 0 reply)) (fun t => t.regs.txf) = some command := by decide

/-- R170, R27. -/
theorem test_reset : State.reset.lock = false ∧ State.reset.phase = .idle ∧ State.reset.conn = false ∧
    State.reset.cfg.addr = 0x02 ∧ State.reset.Inv := by
  refine ⟨rfl, rfl, rfl, rfl, ?_⟩
  exact ⟨by decide, by decide, by decide, by decide, by decide, by decide, by decide, nofun, nofun, by decide, nofun⟩

/-! Witnesses: for each statement with hypotheses, concrete data that meet them, clause by clause. -/

theorem witness_DecodeInvertsEncode :
    (Instr.rplBadck 2 1 100 1 0 0x69).wellFormed = true ∧
    encodeAt 0x02 (.rplBadck 2 1 100 1 0 0x69) = some (.rx badReply.bytes) ∧
    encodeAt 0x02 (.cmdf 1 0 1 500) = some (.tx command.bytes) ∧
    encodeAt 0x02 (.rotateRight 1 500) = some (.request 0x0010001000001F4) := by decide

theorem witness_RequestWordFields :
    word500.toNat / 2 ^ 56 = 0 ∧ (0x100000000000000 : BitVec 58).toNat / 2 ^ 56 = 1 ∧
    (0x2FFFFFFFFFFFFFF : BitVec 58).toNat / 2 ^ 56 = 2 ∧ (0x3FFFFFFFFFFFFFF : BitVec 58).toNat / 2 ^ 56 = 3 := by decide

theorem witness_CommandFrameDeterminesOperands :
    command.b0 = 0x02 ∧ command.valid = true ∧ command = encodeFrame 0x02 1 0 1 500 := by decide

theorem witness_StepRunsDecodedOperation :
    ((asked word500).env = [] ∧ (asked word500).phase = .idle ∧ (asked word500).lock = false ∧
      (asked word500).arb = 1 :: [] ∧ (asked word500).requestOf 1 = some word500) ∧
    ((flying .write 3 reply).env = [] ∧ (flying .write 3 reply).phase = .write ∧
      decodeCommand (flying .write 3 reply).cfg.addr (flying .write 3 reply).regs.txf = .ok (.cmdf 1 0 1 500)) ∧
    ((flying .classify 8 badReply).env = [] ∧ (flying .classify 8 badReply).phase = .classify ∧
      (flying .classify 8 badReply).regs.ckok = (flying .classify 8 badReply).regs.rxf.valid ∧
      (flying .classify 8 badReply).regs.st = (flying .classify 8 badReply).regs.rxf.b2 ∧
      (flying .classify 8 badReply).regs.rv = (flying .classify 8 badReply).regs.rxf.value) ∧
    ({ idle with env := [.block] } : State).env = .block :: [] ∧
    ({ idle with env := [.arrive 7, .block] } : State).env = .arrive 7 :: [.block] ∧ EnvEvent.arrive 7 ≠ .block := by decide

theorem witness_AccumulatorComputesChecksum : command.span.length ≤ 8 ∧ ([] : List Byte).length ≤ 8 := by decide

theorem witness_ChecksumConcatAndOrder : ([0x64, 0x01] : List Byte).Perm [0x01, 0x64] := by decide

theorem witness_OneChangedByteIsDetected :
    reply.valid = true ∧ (0 ≤ 8 ∧ (3 : Byte) ≠ reply.get 0) ∧ (8 ≤ 8 ∧ (0x69 : Byte) ≠ reply.get 8) := by decide

theorem witness_EncodeBuildsCommandFrame :
    command = encodeFrame 0x02 1 0 1 500 ∧ (flying .encode 0 reply).phase = .encode := by decide

theorem witness_DecodeLatchesReply : (flying .decode 8 reply).phase = .decode := by decide

/-- Of `DecodeAcceptsValidFrames` and of `ReceivedFrameSelectsOutcome`, both clauses. -/
theorem witness_DecodeAcceptsValidFrames :
    reply.b8.toNat = spanSum reply.span % 256 ∧ badReply.b8.toNat ≠ spanSum badReply.span % 256 ∧
    lockedReply.b8.toNat = spanSum lockedReply.span % 256 := by decide

/-- V56 is the second clause's: two bytes behind the reply. -/
theorem witness_ValueRoundTrip :
    exchangeFn true 2 1 0 1 500 (List.replicate 9 .ok) (List.replicate 9 .deliver) (reply.bytes ++ [0xAA, 0xBB]) =
      some ⟨.ok 0, command.bytes, reply.bytes⟩ ∧
    reply.bytes = (sealedFrame 2 1 100 1 0).bytes ∧
    classifyStatus 100 (-1) = .ok (-1) ∧ classifyStatus 101 7 = .ok 7 ∧ classifyStatus 102 7 ≠ .ok 7 := by decide

theorem witness_ReceivedFrameSelectsOutcome :
    lockedReply.b8.toNat = spanSum lockedReply.span % 256 ∧ badReply.b8.toNat ≠ spanSum badReply.span % 256 := by decide

/-- Of `GrantLatchesRequest`, `RotateRightIsExec` and, with the reserved word, `ReservedRequestIsRefused`. -/
theorem witness_GrantLatchesRequest :
    (asked word500).phase = .idle ∧ (asked word500).lock = false ∧ (asked word500).arb = 1 :: [] ∧
    (asked word500).requestOf 1 = some word500 := by decide

theorem witness_ReservedRequestIsRefused :
    (asked 0x300000000000000).env = [] ∧ (asked 0x300000000000000).phase = .idle ∧
    (asked 0x300000000000000).lock = false ∧ (asked 0x300000000000000).arb = 1 :: [] ∧
    (asked 0x300000000000000).requestOf 1 = some 0x300000000000000 ∧
    (0x300000000000000 : BitVec 58).toNat / 2 ^ 56 = 3 := by decide

theorem witness_CheckConnTestsConn :
    (flying .chkconn 0 reply).phase = .chkconn ∧ (flying .chkconn 0 reply).conn = true ∧
    ({ flying .chkconn 0 reply with conn := false } : State).phase = .chkconn ∧
    ({ flying .chkconn 0 reply with conn := false } : State).conn = false := by decide

theorem witness_SendIsTracedBeforeWriting : (flying .tsend 8 reply).phase = .tsend := by decide

/-- The counter at 0, 7 and 8, each answer, and both operations. -/
theorem witness_WriteOffersNextByte :
    ((flying .write 0 reply).phase = .write ∧ (flying .write 0 reply).regs.cnt.toNat ≤ 8 ∧
      (flying .write 0 reply).txAns = [] ∧ command = (flying .write 0 reply).regs.txf) ∧
    (({ flying .write 7 reply with txAns := [.ok] } : State).txAns = .ok :: [] ∧
      (flying .write 7 reply).regs.cnt.toNat < 8 ∧
      command = encodeFrame (flying .write 7 reply).cfg.addr 1 0 1 500) ∧
    (({ flying .write 8 reply with txAns := [.ok] } : State).txAns = .ok :: [] ∧
      (flying .write 8 reply).regs.cnt.toNat = 8) ∧
    ({ flying .write 8 reply with txAns := [.fail 9 true] } : State).txAns = .fail 9 true :: [] := by decide

/-- The counter at 0, 7 and 8, and each answer. -/
theorem witness_ReadTakesNextByte :
    ((flying .read 0 reply).phase = .read ∧ (flying .read 0 reply).regs.cnt.toNat ≤ 8 ∧
      (flying .read 0 reply).rxAns = []) ∧
    (({ flying .read 0 reply with rxAns := [.deliver] } : State).rxAns = .deliver :: [] ∧
      ({ flying .read 0 reply with rxAns := [.deliver] } : State).rxs = []) ∧
    (({ flying .read 7 reply with rxAns := [.deliver], rxs := [0, 0x68] } : State).rxs = 0 :: [0x68] ∧
      (flying .read 7 reply).regs.cnt.toNat < 8) ∧
    (({ flying .read 8 reply with rxAns := [.deliver], rxs := [0x68] } : State).rxs = 0x68 :: [] ∧
      (flying .read 8 reply).regs.cnt.toNat = 8) ∧
    ({ flying .read 8 reply with rxAns := [.fail 9] } : State).rxAns = .fail 9 :: [] := by decide

theorem witness_ReceiveIsTraced :
    (flying .trecv 8 reply).phase = .trecv ∧ (flying .trecv 8 reply).regs.ckok = true ∧
    (flying .trecv 8 badReply).phase = .trecv ∧ (flying .trecv 8 badReply).regs.ckok = false := by decide

theorem witness_ClassifyTestsChecksumFirst :
    (flying .classify 8 reply).phase = .classify ∧ (flying .classify 8 reply).regs.ckok = true ∧
    (flying .classify 8 badReply).phase = .classify ∧ (flying .classify 8 badReply).regs.ckok = false := by decide

theorem witness_AttachSetsConn :
    (inSys .attach false).phase = .sys ∧ (inSys .attach false).regs.op = .attach := by decide

theorem witness_DetachClearsConn :
    (inSys .detach true).phase = .sys ∧ (inSys .detach true).regs.op = .detach := by decide

theorem witness_RotateRightIsExec :
    (asked word500).phase = .idle ∧ (asked word500).lock = false ∧ (asked word500).arb = 1 :: [] ∧
    (asked word500).requestOf 1 = some word500 := witness_GrantLatchesRequest

/-- A step of the block from every phase, and from both ends of the byte loops (`PhaseTransitions`,
`StreamsMoveOneByte`). -/
theorem witness_PhaseTransitions :
    (asked word500).env = [] ∧ (inSys .attach false).env = [] ∧ (flying .write 8 reply).env = [] ∧
    after (step (asked word500)) State.phase = some .chkconn ∧
    after (step (asked 0x100000000000000)) State.phase = some .sys ∧
    after (step (inSys .attach false)) State.phase = some .idle ∧
    after (step (inSys .detach true)) State.phase = some .idle ∧
    after (step (flying .chkconn 0 reply)) State.phase = some .encode ∧
    after (step { flying .chkconn 0 reply with conn := false }) State.phase = some .idle ∧
    after (step (flying .encode 0 reply)) State.phase = some .tsend ∧
    after (step (flying .tsend 8 reply)) State.phase = some .write := by decide

/-- No choice, a choice of a caller with nothing pending (log 8), the lock held. -/
theorem witness_PhaseTransitions_idle :
    step idle = .next idle ∧ step { idle with arb := [1] } = .next idle ∧
    step { asked word500 with lock := true } = .next { asked word500 with lock := true } :=
  ⟨rfl, rfl, rfl⟩

theorem witness_PhaseTransitions_bytes :
    step (flying .write 0 reply) = .next (flying .write 0 reply) ∧
    after (step { flying .write 7 reply with txAns := [.ok] }) State.phase = some .write ∧
    after (step { flying .write 8 reply with txAns := [.ok] }) State.phase = some .read ∧
    after (step { flying .write 0 reply with txAns := [.fail 9 false] }) State.phase = some .idle ∧
    step (flying .read 0 reply) = .next (flying .read 0 reply) ∧
    after (step { flying .read 7 reply with rxAns := [.deliver], rxs := [1] }) State.phase = some .read ∧
    after (step { flying .read 8 reply with rxAns := [.deliver], rxs := [1] }) State.phase = some .decode ∧
    after (step { flying .read 0 reply with rxAns := [.fail 9] }) State.phase = some .idle ∧
    after (step (flying .decode 8 reply)) State.phase = some .trecv ∧
    after (step (flying .trecv 8 reply)) State.phase = some .classify ∧
    after (step (flying .classify 8 badReply)) State.phase = some .idle :=
  ⟨rfl, rfl, rfl, rfl, rfl, rfl, rfl, rfl, rfl, rfl, rfl⟩

theorem witness_InFlightStepIsExec :
    (flying .chkconn 0 reply).env = [] ∧ (flying .chkconn 0 reply).phase.inExchange = true ∧
    (flying .classify 8 reply).phase.inExchange = true := by decide

theorem witness_NoGrantWhileLocked :
    (flying .tsend 8 reply).env = [] ∧ (flying .tsend 8 reply).lock = true ∧
    after (step (flying .tsend 8 reply)) State.lock = some true ∧
    after (step (flying .classify 8 reply)) State.lock = some false := by decide

theorem witness_StreamsMoveOneByte :
    ({ flying .write 8 reply with txAns := [.ok] } : State).env = [] ∧
    after (step { flying .write 8 reply with txAns := [.ok] }) State.txs = some [0xF9] ∧
    after (step { flying .read 0 reply with rxAns := [.deliver], rxs := [2, 1] }) State.rxs = some [1] := by decide

/-- An idle block with nothing outstanding, connected or not, with any events to come. -/
theorem quiet_inv (conn : Bool) (env : List EnvEvent) : ({ idle with conn := conn, env := env } : State).Inv :=
  ⟨by simp [idle, State.resetWith], nofun, nofun, nofun, nofun, nofun, nofun, nofun, nofun,
    by simp [State.outstanding, idle, State.resetWith], by simp [State.outstanding, idle, State.resetWith]⟩

theorem inSys_inv : (inSys .attach false).Inv :=
  ⟨by decide, by decide, nofun, nofun, nofun, nofun, nofun, nofun, nofun, by decide, by decide⟩

/-- The block's own step, and a reset. -/
theorem witness_ConnChangesOnlyInSys :
    ((inSys .attach false).Inv ∧ after (step (inSys .attach false)) State.conn = some true) ∧
    (({ idle with conn := true, env := [.reset] } : State).Inv ∧
      after (step { idle with conn := true, env := [.reset] }) State.conn = some false) ∧
    after (exec .detach (inSys .detach true)) State.conn = some false :=
  ⟨⟨inSys_inv, by decide⟩, ⟨quiet_inv _ _, by decide⟩, by decide⟩

theorem witness_AddressIsHardwired :
    step (flying .chkconn 0 reply) = .next { flying .chkconn 0 reply with phase := .encode } ∧
    after (exec (.encode 1 0 1 500) idle) (fun t => t.regs.txf.b0) = some 0x02 :=
  ⟨rfl, rfl⟩

theorem witness_ResetAbandonsExchange : ({ flying .write 3 reply with env := [.reset] } : State).env = .reset :: [] := by
  decide

/-- Caller 1 has not taken the outcome of its `ATTACH`. -/
def answered : State := { idle with conn := true, rsp := [(1, (OpOutcome.ok 0).response 8)], env := [.take 1] }

/-- Callers 0 to 2 exist; a waiting, the last and the first nonexistent one, and one that takes its outcome. -/
theorem witness_CallerPresentsOneRequest :
    ({ asked word500 with env := [.present 1 0] } : State).env = .present 1 0 :: [] ∧
    1 ∈ (asked word500).outstanding ∧ 2 ∉ (asked word500).outstanding ∧ 2 < (asked word500).cfg.nCallers ∧
    (asked word500).cfg.nCallers ≤ 3 ∧
    answered.env = .take 1 :: [] ∧ answered.Inv ∧ 1 ∈ answered.rsp.map Prod.fst :=
  ⟨by decide, by decide, by decide, by decide, by decide, by decide,
    ⟨by decide, nofun, nofun, nofun, nofun, nofun, nofun, nofun, nofun, by decide, by decide⟩, by decide⟩

/-- Three bytes of the frame sent, the fourth about to go. -/
def writing : State := { flying .write 3 reply with txs := [9, 9, 2, 1, 0], txAns := [.ok] }

theorem writing_inv : writing.Inv :=
  ⟨by decide, by decide, by decide, by decide, by decide, by decide, by decide, fun _ => ⟨[9, 9], rfl⟩, nofun,
    by decide, by decide⟩

theorem witness_StepKeepsInvariant : writing.Inv ∧ after (step writing) State.txs = some [9, 9, 2, 1, 0, 1] :=
  ⟨writing_inv, by decide⟩

theorem witness_OnlyReservedRequestsStop : writing.Inv ∧ idle.Inv :=
  ⟨writing_inv, by decide, by decide, by decide, by decide, by decide, by decide, by decide, nofun, nofun, by decide,
    nofun⟩

/-- One byte of the frame sent, after the two bytes a failed exchange left. -/
def writing2 : State := { flying .write 1 reply with txs := [2, 3, 2], txAns := [.ok] }

theorem witness_StepKeepsTxsSegmented :
    writing2.Inv ∧ TxsSegmented writing2 ∧ after (step writing2) State.txs = some [2, 3, 2, 1] := by
  refine ⟨⟨by decide, by decide, by decide, by decide, by decide, by decide, by decide, fun _ => ⟨[2, 3], rfl⟩, nofun,
    by decide, by decide⟩, ⟨[[2, 3]], ?_, rfl⟩, by decide⟩
  intro seg hseg
  rw [List.mem_singleton] at hseg
  subst hseg
  exact ⟨3, 0, 0, 0, ⟨_, rfl⟩⟩

/-- V54 about to begin. -/
def about : State :=
  { asked word500 with conn := true, txAns := List.replicate 9 .ok, rxAns := List.replicate 9 .deliver, rxs := reply.bytes }

theorem witness_ExchangeIsOneFunction :
    about.env = [] ∧ about.phase = .idle ∧ about.lock = false ∧ about.arb = [1] ∧ about.requestOf 1 = some word500 ∧
    decodeRequest word500 = .exec 1 0 1 500 ∧
    exchangeFn about.conn about.cfg.addr 1 0 1 500 about.txAns about.rxAns about.rxs =
      some ⟨.ok 0, command.bytes, reply.bytes⟩ := by decide

/-- V46, V48, V51, V53 and V55. -/
theorem witness_ExchangeEffectsByOutcome :
    exchangeFn false 2 1 0 1 500 [] [] [] = some ⟨.notConnected, [], []⟩ ∧
    exchangeFn true 2 1 0 1 500 [.ok, .ok, .ok, .fail 9 true] [] [] =
      some ⟨.transportError .write 9, [2, 1, 0, 1], []⟩ ∧
    exchangeFn true 2 1 0 1 500 (List.replicate 9 .ok) [.deliver, .deliver, .deliver, .deliver, .fail 9] reply.bytes =
      some ⟨.transportError .read 9, command.bytes, [2, 1, 0x64, 1]⟩ ∧
    exchangeFn true 2 1 0 1 500 (List.replicate 9 .ok) (List.replicate 9 .deliver) badReply.bytes =
      some ⟨.checksumError, command.bytes, badReply.bytes⟩ ∧
    exchangeFn true 2 1 0 1 500 (List.replicate 9 .ok) (List.replicate 9 .deliver) lockedReply.bytes =
      some ⟨.protocolStatusError .configurationLocked, command.bytes, lockedReply.bytes⟩ := by decide

theorem witness_AttachDetachRunToTheEnd :
    ((asked 0x100000000000000).env = [] ∧ (asked 0x100000000000000).phase = .idle ∧
      (asked 0x100000000000000).lock = false ∧ (asked 0x100000000000000).arb = [1] ∧
      (asked 0x100000000000000).requestOf 1 = some 0x100000000000000 ∧
      decodeRequest 0x100000000000000 = if true then .attach else .detach) ∧
    (asked 0x200000000000000).requestOf 1 = some 0x200000000000000 ∧
    decodeRequest 0x200000000000000 = (if false then .attach else .detach) := by decide

theorem witness_UnansweredTransferHangs :
    ((flying .read 8 reply).env = [] ∧ (flying .read 8 reply).regs.cnt.toNat ≤ 8 ∧
      (flying .read 8 reply).phase = .read ∧ (flying .read 8 reply).rxAns = []) ∧
    (({ flying .read 0 reply with rxAns := [.deliver] } : State).env = [] ∧
      (flying .read 0 reply).regs.cnt.toNat ≤ 8 ∧ (flying .read 0 reply).phase = .read ∧
      ({ flying .read 0 reply with rxAns := [.deliver] } : State).rxAns = .deliver :: [] ∧
      ({ flying .read 0 reply with rxAns := [.deliver] } : State).rxs = []) ∧
    (flying .write 0 reply).env = [] ∧ (flying .write 0 reply).regs.cnt.toNat ≤ 8 ∧
      (flying .write 0 reply).phase = .write ∧ (flying .write 0 reply).txAns = [] := by decide

/-- The last byte of the frame about to be refused (V49). -/
def failing : State := { flying .write 8 reply with txs := command.bytes.take 8, txAns := [.fail 9 true] }

/-- The reply awaited, about to fail. -/
def silent : State := { flying .read 0 reply with txs := command.bytes, rxAns := [.fail 9] }

/-- The state the block waits in, from `s` on, after one step. -/
def settled (s : State) : State := (after (step s) id).getD idle

theorem failing_reaches {t : State} (h : Reaches failing t) : t = failing ∨ t = settled failing :=
  (reaches_cases (rfl : step failing = .next (settled failing)) h).imp_right
    (reaches_self (rfl : step (settled failing) = .next (settled failing)))

theorem silent_reaches {t : State} (h : Reaches silent t) : t = silent ∨ t = settled silent :=
  (reaches_cases (rfl : step silent = .next (settled silent)) h).imp_right
    (reaches_self (rfl : step (settled silent) = .next (settled silent)))

theorem witness_AnsweredTransfersEndTheOperation :
    (failing.Inv ∧ WritePrompt failing ∧ ReadBounded failing ∧ failing.lock = true ∧ EnvEvent.reset ∉ failing.env) ∧
    (silent.Inv ∧ WritePrompt silent ∧ ReadBounded silent ∧ silent.lock = true ∧ EnvEvent.reset ∉ silent.env) := by
  refine ⟨⟨⟨by decide, by decide, by decide, by decide, by decide, by decide, by decide, fun _ => ⟨[], rfl⟩, nofun,
      by decide, by decide⟩, ?_, ?_, by decide, by decide⟩,
    ⟨⟨by decide, by decide, by decide, by decide, by decide, by decide, by decide, nofun, fun _ => ⟨[], rfl⟩,
      by decide, by decide⟩, ?_, ?_, by decide, by decide⟩⟩
  · intro t h hw
    rcases failing_reaches h with rfl | rfl
    · exact ⟨_, Reaches.step rfl, nofun⟩
    · exact absurd hw nofun
  · intro t h hr
    rcases failing_reaches h with rfl | rfl <;> exact absurd hr nofun
  · intro t h hw
    rcases silent_reaches h with rfl | rfl <;> exact absurd hw nofun
  · intro t h hr
    rcases silent_reaches h with rfl | rfl
    · exact ⟨_, Reaches.step rfl, nofun⟩
    · exact absurd hr nofun

/-- Caller 1 waits with an `ATTACH`, and the arbiter is about to choose it. -/
def waiting : State := asked 0x100000000000000

theorem waiting_reaches {t : State} (h : Reaches waiting t) :
    t = waiting ∨ t = settled waiting ∨ t = settled (settled waiting) :=
  (reaches_cases (rfl : step waiting = .next (settled waiting)) h).imp_right fun k =>
    (reaches_cases (rfl : step (settled waiting) = .next (settled (settled waiting))) k).imp_right
      (reaches_self (rfl : step (settled (settled waiting)) = .next (settled (settled waiting))))

theorem witness_WaitingCallerIsAnswered :
    waiting.Inv ∧ ArbFair waiting ∧ WritePrompt waiting ∧ ReadBounded waiting ∧ EnvEvent.reset ∉ waiting.env ∧
    1 ∈ waiting.req.map Prod.fst := by
  refine ⟨⟨by decide, nofun, nofun, nofun, nofun, nofun, nofun, nofun, nofun, by decide, by decide⟩, ?_, ?_, ?_,
    by decide, by decide⟩
  · intro t h c hc
    rcases waiting_reaches h with rfl | rfl | rfl
    · exact ⟨_, Reaches.step rfl, nofun⟩
    · exact absurd hc nofun
    · exact absurd hc nofun
  · intro t h hw
    rcases waiting_reaches h with rfl | rfl | rfl <;> exact absurd hw nofun
  · intro t h hr
    rcases waiting_reaches h with rfl | rfl | rfl <;> exact absurd hr nofun

theorem witness_DeadRegistersAreNeverRead :
    about.phase = .idle ∧ about.lock = false ∧ about.regs ≠ (flying .write 3 reply).regs := by decide

end Sys2Proof.Tests
end

section
/-! PROOF. What one action of the block is, phase by phase (R101 to R111, R114), and who moves in a step (R123). -/

namespace Sys2Proof.Machine

/-! ## The action of each phase (R114) -/

theorem blockStep_of_sys {s : State} (h : s.phase = .sys) (hop : s.regs.op ≠ .exec) :
    ∃ conn, blockStep s = .next ((s.setConn conn).finish (.ok 0)) := by
  cases ho : s.regs.op with
  | exec => exact absurd ho hop
  | attach =>
    exact ⟨true, by simp [blockStep, State.selected, h, ho, Machine.exec, execAttach, handleRequest]⟩
  | detach =>
    exact ⟨false, by simp [blockStep, State.selected, h, ho, Machine.exec, execDetach, handleRequest]⟩

theorem blockStep_of_chkconn {s : State} (h : s.phase = .chkconn) : blockStep s = checkConn s := by
  simp [blockStep, State.selected, State.inFlight, h, Machine.exec, execExec, exchange]

theorem blockStep_of_encode {s : State} (h : s.phase = .encode) :
    blockStep s = encodePhase s.regs.cmd s.regs.type s.regs.bank s.regs.value s := by
  simp [blockStep, State.selected, h, Machine.exec, execEncode]

theorem blockStep_of_tsend {s : State} (h : s.phase = .tsend) :
    blockStep s = traceSend s.regs.cmd s.regs.type s.regs.bank s.regs.value s := by
  simp [blockStep, State.selected, State.inFlight, h, Machine.exec, execExec, exchange]

/-- Whatever `TXF` decodes to, the action of `WRITE` is a store of byte `CNT` of some frame (R62, R106). -/
theorem blockStep_of_write {s : State} (h : s.phase = .write) : ∃ f, blockStep s = writeByte f s := by
  have hb : blockStep s = Machine.exec s.emitted s := by simp only [blockStep, State.selected, h]
  rw [hb]
  unfold State.emitted decodeCommand
  split_ifs
  · exact ⟨s.regs.txf, by simp [State.inFlight, Machine.exec, execExec, exchange, h]⟩
  · exact ⟨_, rfl⟩
  · exact ⟨s.regs.txf, by simp [State.inFlight, Machine.exec, execExec, exchange, h]⟩

theorem blockStep_of_read {s : State} (h : s.phase = .read) : blockStep s = readByte s := by
  simp [blockStep, State.selected, State.inFlight, h, Machine.exec, execExec, exchange]

theorem blockStep_of_decode {s : State} (h : s.phase = .decode) : blockStep s = decodePhase s.regs.rxf s := by
  simp [blockStep, State.selected, h, Machine.exec, execDecode]

theorem blockStep_of_trecv {s : State} (h : s.phase = .trecv) : blockStep s = traceReceive s := by
  simp [blockStep, State.selected, State.inFlight, h, Machine.exec, execExec, exchange]

/-- Every reply row ends the exchange, whatever the status byte is (R90 to R98). -/
theorem exec_replyRow (status a m e : Byte) (v : Value) (s : State) :
    ∃ o, Machine.exec (replyRow status a m e v) s = .next (s.finish o) := by
  unfold replyRow
  split <;> exact ⟨_, rfl⟩

/-- Whatever the reply is, the action of `CLASSIFY` ends the exchange (R110, R111). -/
theorem blockStep_of_classify {s : State} (h : s.phase = .classify) :
    ∃ o, blockStep s = .next (s.finish o) := by
  have hb : blockStep s = Machine.exec s.replySelected s := by simp only [blockStep, State.selected, h]
  rw [hb]
  unfold State.replySelected
  split
  · exact exec_replyRow ..
  · exact ⟨_, rfl⟩

/-- In `IDLE` a request is the grant of its operation, or refused as reserved (R59, R101). -/
theorem exec_decodeRequest (w : BitVec 58) {s : State} (h : s.phase = .idle) :
    (∃ op f, Machine.exec (decodeRequest w) s = .next (s.grant op f)) ∨
    Machine.exec (decodeRequest w) s = .refused .reservedRequest := by
  unfold decodeRequest
  split
  · exact .inl ⟨.exec, fun _ => requestOperands w, by simp only [Machine.exec, execExec, exchange, h, requestOperands]⟩
  · exact .inl ⟨.attach, requestOperands, by simp only [Machine.exec, execAttach, handleRequest, h]⟩
  · exact .inl ⟨.detach, requestOperands, by simp only [Machine.exec, execDetach, handleRequest, h]⟩
  · exact .inr rfl

/-- The action of an idle block that is not refused (R101): nothing is granted, or the request the arbiter chose is. -/
theorem blockStep_of_idle {s t : State} (h : s.phase = .idle) (hl : s.lock = false) (hb : blockStep s = .next t) :
    (∃ arb, t = { s with arb := arb }) ∨ ∃ op f, t = s.grant op f := by
  simp only [blockStep, State.selected, h, hl, Bool.false_or] at hb
  split_ifs at hb with harb
  · cases hb
    exact .inl ⟨s.arb, rfl⟩
  · cases hg : s.granted with
    | none =>
      rw [hg] at hb
      cases hb
      exact .inl ⟨s.arb.tail, by simp [h, hl]⟩
    | some g =>
      rw [hg] at hb
      rcases exec_decodeRequest g.2 h with ⟨op, f, he⟩ | he
      · cases he.symm.trans hb
        exact .inr ⟨op, f, rfl⟩
      · cases he.symm.trans hb

@[simp] theorem Regs.ckRun_owner (r : Regs) (span : List Byte) : (r.ckRun span).owner = r.owner := by
  rw [ckRun_frame]

@[simp] theorem Regs.encode_owner (r : Regs) (addr cmd type bank : Byte) (value : Value) :
    (r.encode addr cmd type bank value).owner = r.owner := by
  simp [Regs.encode, Regs.putValue, Regs.putHeader]

@[simp] theorem Regs.decode_owner (r : Regs) (f : Frame) : (r.decode f).owner = r.owner := by
  simp [Regs.decode]

/-! ## What an event of the environment leaves alone (R123) -/

/-- The state with the entry of `env` that says who moves taken off. -/
def State.popEvent (s : State) : State := { s with env := s.env.tail }

/-- But for a reset, an event leaves the block alone and takes no pending request away. -/
theorem environment_frame {e : EnvEvent} (he : e ≠ .reset) (s : State) :
    (s.environment e).lock = s.lock ∧ (s.environment e).phase = s.phase ∧ (s.environment e).regs = s.regs ∧
    (s.environment e).env = s.env ∧ s.req ⊆ (s.environment e).req := by
  cases e with
  | reset => exact absurd rfl he
  | present caller word =>
    by_cases hp : s.mayPresent caller <;> simp [State.environment, hp]
  | block => simp [State.environment]
  | take caller => simp [State.environment]
  | arrive b => simp [State.environment]
  | answerStore a => simp [State.environment]
  | answerLoad a => simp [State.environment]
  | choose caller => simp [State.environment]

/-- Who moves in a step (R123): the block, a reset, or another agent. -/
theorem step_agent (s : State) :
    step s = blockStep s.popEvent ∨
    (EnvEvent.reset ∈ s.env ∧ step s = .next s.popEvent.resetEvent) ∨
    (s.env ≠ [] ∧ ∃ e, e ≠ .reset ∧ step s = .next (s.popEvent.environment e)) := by
  rcases step_cases s with ⟨henv, hstep⟩ | ⟨rest, henv, hstep⟩ | ⟨e, rest, henv, -, hstep⟩
  · have hpop : s.popEvent = s := by cases s; simp_all [State.popEvent]
    exact .inl (by rw [hpop, hstep])
  · exact .inl (by rw [hstep, State.popEvent, henv, List.tail_cons])
  · have hpop : s.popEvent = { s with env := rest } := by rw [State.popEvent, henv, List.tail_cons]
    by_cases he : e = .reset
    · subst he
      exact .inr (.inl ⟨by simp [henv], by rw [hstep, hpop]; rfl⟩)
    · exact .inr (.inr ⟨by simp [henv], e, he, by rw [hstep, hpop]⟩)

end Sys2Proof.Machine
end

section
/-! PROOF. What one step does to the operation that holds the lock (R37, R112, R114). -/

namespace Sys2Proof.Machine

/-- The part of the invariant that keeps the sequencer going: with it no action of a locked block stops. -/
structure State.Sequenced (s : State) : Prop where
  /-- `LOCK = 0` if and only if `PHASE = IDLE` (R11). -/
  lock_iff : s.lock = false ↔ s.phase = .idle
  /-- `SYS` is for `ATTACH` and `DETACH` (R101). -/
  sys_op : s.phase = .sys → s.regs.op ≠ .exec
  /-- `CNT` is the index of a byte of the frame (R14). -/
  cnt_range : s.phase.transfer = true → s.regs.cnt.toNat ≤ 8

theorem State.Inv.sequenced {s : State} (h : s.Inv) : s.Sequenced := ⟨h.lock_iff, h.sys_op, h.cnt_range⟩

theorem State.Sequenced.of_idle {s : State} (hl : s.lock = false) (hp : s.phase = .idle) : s.Sequenced :=
  ⟨by simp [hl, hp], by simp [hp], by simp [hp, Phase.transfer]⟩

/-- `Sequenced` speaks of `LOCK`, `PHASE` and the transient registers alone. -/
theorem State.Sequenced.congr {s t : State} (h : s.Sequenced) (hl : t.lock = s.lock) (hp : t.phase = s.phase)
    (hr : t.regs = s.regs) : t.Sequenced :=
  ⟨by rw [hl, hp]; exact h.lock_iff, by rw [hp, hr]; exact h.sys_op, by rw [hp, hr]; exact h.cnt_range⟩

/-- An operation of `caller` holds the lock. -/
structure State.HeldBy (caller : Nat) (s : State) : Prop where
  sequenced : s.Sequenced
  locked : s.lock = true
  owner : s.regs.owner = caller

theorem State.HeldBy.phase_ne_idle {c : Nat} {s : State} (h : s.HeldBy c) : s.phase ≠ .idle := fun hp =>
  Bool.false_ne_true ((h.sequenced.lock_iff.mpr hp).symm.trans h.locked)

theorem State.HeldBy.congr {c : Nat} {s t : State} (h : s.HeldBy c) (hl : t.lock = s.lock)
    (hp : t.phase = s.phase) (hr : t.regs = s.regs) : t.HeldBy c :=
  ⟨h.sequenced.congr hl hp hr, hl.trans h.locked, by rw [hr, h.owner]⟩

theorem Phase.transfer_iff (p : Phase) : p.transfer = true ↔ p = .write ∨ p = .read := by
  cases p <;> simp [Phase.transfer]

/-- In a phase that moves no bytes and is not `SYS`, the lock and the owner are all there is to keep. -/
theorem State.HeldBy.of_computing {c : Nat} {s : State} (hl : s.lock = true) (ho : s.regs.owner = c)
    (hi : s.phase ≠ .idle) (hs : s.phase ≠ .sys) (ht : s.phase.transfer = false) : s.HeldBy c :=
  ⟨⟨by simp [hl, hi], fun h => absurd h hs, by simp [ht]⟩, hl, ho⟩

/-- In a phase that moves bytes, `CNT` must be in range too. -/
theorem State.HeldBy.of_transfer {c : Nat} {s : State} (hl : s.lock = true) (ho : s.regs.owner = c)
    (ht : s.phase.transfer = true) (hc : s.regs.cnt.toNat ≤ 8) : s.HeldBy c := by
  rcases (Phase.transfer_iff _).mp ht with hp | hp <;>
    exact ⟨⟨by simp [hl, hp], by simp [hp], fun _ => hc⟩, hl, ho⟩

/-- How many phases an operation can have still to go through (R114): no step of a locked block makes it larger. -/
def Phase.rank : Phase → Nat
  | .idle => 0
  | .classify => 1
  | .trecv => 2
  | .decode => 3
  | .read => 4
  | .write => 5
  | .tsend => 6
  | .encode => 7
  | .chkconn => 8
  | .sys => 9

/-- Phase `p` is `q` or one that comes later in the operation. -/
def Phase.NoEarlier (p q : Phase) : Prop := p = q ∨ p.rank < q.rank

theorem Phase.NoEarlier.trans {p q r : Phase} (h : p.NoEarlier q) (k : q.NoEarlier r) : p.NoEarlier r := by
  rcases h with rfl | h
  · exact k
  · rcases k with rfl | k
    · exact .inr h
    · exact .inr (h.trans k)

/-- What a step from `s` to `t` does to the operation of `caller` that holds the lock in `s`. -/
inductive HeldStep (caller : Nat) (s t : State) : Prop
  /-- A reset abandons it (R171). -/
  | cutOff (reset : EnvEvent.reset ∈ s.env) (free : t.lock = false) (idle : t.phase = .idle)
  /-- It ends, its outcome delivered (R112). -/
  | answered (free : t.lock = false) (idle : t.phase = .idle) (delivered : caller ∈ t.rsp.map Prod.fst)
      (req : s.req ⊆ t.req)
  /-- It goes on to a later phase (R114). -/
  | advanced (held : t.HeldBy caller) (rank : t.phase.rank < s.phase.rank) (req : s.req ⊆ t.req)
  /-- It stays in its phase: a transfer is under way, or another agent has moved. -/
  | stayed (held : t.HeldBy caller) (phase : t.phase = s.phase) (req : s.req ⊆ t.req)
      (why : s.phase.transfer = true ∨ s.env ≠ [])

/-- `Finish` answers the owner (R112). -/
theorem HeldStep.of_ended {c : Nat} {s u t : State} {o : OpOutcome} (h : s.HeldBy c) (he : Ended o u t)
    (hr : u.regs = s.regs) (hq : u.req = s.req) : HeldStep c s t :=
  .answered he.lock he.phase (by simp [he.delivered, hr, h.owner]) (by rw [he.req, hq]; exact List.Subset.refl _)

/-- Taking the entry off `env` is part of the step. -/
theorem HeldStep.of_popEvent {c : Nat} {s t : State} (h : HeldStep c s.popEvent t) : HeldStep c s t := by
  cases h with
  | cutOff reset free idle => exact .cutOff (List.mem_of_mem_tail reset) free idle
  | answered free idle delivered req => exact .answered free idle delivered req
  | advanced held rank req => exact .advanced held rank req
  | stayed held phase req why =>
    exact .stayed held phase req (why.imp_right fun hne hnil => hne (by simp [State.popEvent, hnil]))

theorem HeldStep.sequenced {c : Nat} {s t : State} (h : HeldStep c s t) : t.Sequenced := by
  cases h with
  | cutOff _ free idle => exact .of_idle free idle
  | answered free idle => exact .of_idle free idle
  | advanced held => exact held.sequenced
  | stayed held => exact held.sequenced

/-- Only a reset forgets a pending request while the lock is held (R101, R171). -/
theorem HeldStep.req_subset {c : Nat} {s t : State} (h : HeldStep c s t) (hreset : EnvEvent.reset ∉ s.env) :
    s.req ⊆ t.req := by
  cases h with
  | cutOff reset => exact absurd reset hreset
  | answered _ _ _ req => exact req
  | advanced _ _ req => exact req
  | stayed _ _ req => exact req

/-- An action of the next phase that keeps the lock, the owner and the requests. -/
theorem HeldStep.of_computing {c : Nat} {s t : State} (h : s.HeldBy c) (hl : t.lock = s.lock)
    (ho : t.regs.owner = s.regs.owner) (hq : t.req = s.req) (hr : t.phase.rank < s.phase.rank)
    (hi : t.phase ≠ .idle) (hs : t.phase ≠ .sys) (ht : t.phase.transfer = false) : HeldStep c s t :=
  .advanced (.of_computing (hl.trans h.locked) (ho.trans h.owner) hi hs ht) hr (hq ▸ List.Subset.refl _)

theorem toNat_add_one_le {n : BitVec 4} (h : n.toNat < 8) : (n + 1).toNat ≤ 8 := by bv_omega

/-- One store: the operation ends, goes on to `READ`, or stays in `WRITE` (R106). -/
theorem writeByte_held {c : Nat} {s : State} (h : s.HeldBy c) (hp : s.phase = .write) (f : Frame) :
    ∃ t, writeByte f s = .next t ∧ t.env = s.env ∧ HeldStep c s t := by
  have ht : s.phase.transfer = true := by rw [hp]; rfl
  have hc := h.sequenced.cnt_range ht
  rcases writeByte_cases f s with ⟨h9, -⟩ | ⟨-, ⟨-, hw⟩ | ⟨rest, -, -, hw⟩ | ⟨rest, -, h8, hw⟩ | ⟨_, _, rest, -, hw⟩⟩
  · omega
  · exact ⟨s, hw, rfl, .stayed h rfl (List.Subset.refl _) (.inl ht)⟩
  · exact ⟨_, hw, rfl, .advanced (.of_transfer h.locked h.owner rfl (Nat.zero_le _)) (by simp [hp, Phase.rank])
      (List.Subset.refl _)⟩
  · exact ⟨_, hw, rfl, .stayed (.of_transfer h.locked h.owner rfl (toNat_add_one_le h8)) hp.symm
      (List.Subset.refl _) (.inl ht)⟩
  · exact ⟨_, hw, rfl, .of_ended h (finish_ended _ _) rfl rfl⟩

/-- One load: the operation ends, goes on to `DECODE`, or stays in `READ` (R107). -/
theorem readByte_held {c : Nat} {s : State} (h : s.HeldBy c) (hp : s.phase = .read) :
    ∃ t, readByte s = .next t ∧ t.env = s.env ∧ HeldStep c s t := by
  have ht : s.phase.transfer = true := by rw [hp]; rfl
  have hc := h.sequenced.cnt_range ht
  rcases readByte_cases s with
    ⟨h9, -⟩ | ⟨-, ⟨-, hr⟩ | ⟨rest, b, bs, -, -, -, hr⟩ | ⟨rest, b, bs, -, -, h8, hr⟩ | ⟨_, rest, -, hr⟩⟩
  · omega
  · exact ⟨s, hr, rfl, .stayed h rfl (List.Subset.refl _) (.inl ht)⟩
  · exact ⟨_, hr, rfl, .of_computing h rfl rfl rfl (by simp [hp, Phase.rank]) nofun nofun rfl⟩
  · exact ⟨_, hr, rfl, .stayed (.of_transfer h.locked h.owner rfl (toNat_add_one_le h8)) hp.symm
      (List.Subset.refl _) (.inl ht)⟩
  · exact ⟨_, hr, rfl, .of_ended h (finish_ended _ _) rfl rfl⟩

/-- One action of a locked block: it does not stop, and it ends the operation or takes it forward (R114). -/
theorem blockStep_held {c : Nat} {s : State} (h : s.HeldBy c) :
    ∃ t, blockStep s = .next t ∧ t.env = s.env ∧ HeldStep c s t := by
  cases hp : s.phase with
  | idle => exact absurd hp h.phase_ne_idle
  | sys =>
    obtain ⟨conn, hb⟩ := blockStep_of_sys hp (h.sequenced.sys_op hp)
    exact ⟨_, hb, rfl, .of_ended h (finish_ended _ _) rfl rfl⟩
  | chkconn =>
    rw [blockStep_of_chkconn hp]
    unfold checkConn
    split
    · exact ⟨_, rfl, rfl, .of_computing h rfl rfl rfl (by simp [hp, Phase.rank]) nofun nofun rfl⟩
    · exact ⟨_, rfl, rfl, .of_ended h (finish_ended _ _) rfl rfl⟩
  | encode =>
    exact ⟨_, blockStep_of_encode hp, rfl,
      .of_computing h rfl (Regs.encode_owner ..) rfl (by simp [hp, Phase.rank]) nofun nofun rfl⟩
  | tsend =>
    exact ⟨_, blockStep_of_tsend hp, rfl,
      .advanced (.of_transfer h.locked h.owner rfl (Nat.zero_le _)) (by simp [hp, Phase.rank]) (List.Subset.refl _)⟩
  | write =>
    obtain ⟨f, hb⟩ := blockStep_of_write hp
    rw [hb]
    exact writeByte_held h hp f
  | read =>
    rw [blockStep_of_read hp]
    exact readByte_held h hp
  | decode =>
    exact ⟨_, blockStep_of_decode hp, rfl,
      .of_computing h rfl (Regs.decode_owner ..) rfl (by simp [hp, Phase.rank]) nofun nofun rfl⟩
  | trecv =>
    rw [blockStep_of_trecv hp]
    unfold traceReceive
    split <;> exact ⟨_, rfl, rfl, .of_computing h rfl rfl rfl (by simp [hp, Phase.rank]) nofun nofun rfl⟩
  | classify =>
    obtain ⟨o, hb⟩ := blockStep_of_classify hp
    exact ⟨_, hb, rfl, .of_ended h (finish_ended _ _) rfl rfl⟩

/-- One step of a locked machine, whoever moves (R123). -/
theorem step_held {c : Nat} {s : State} (h : s.HeldBy c) :
    ∃ t, step s = .next t ∧ t.env = s.env.tail ∧ HeldStep c s t := by
  have hpop : s.popEvent.HeldBy c := h.congr rfl rfl rfl
  rcases step_agent s with hstep | ⟨hreset, hstep⟩ | ⟨henv, e, he, hstep⟩
  · obtain ⟨t, hb, htail, hheld⟩ := blockStep_held hpop
    exact ⟨t, hstep.trans hb, htail, hheld.of_popEvent⟩
  · exact ⟨_, hstep, rfl, .cutOff hreset rfl rfl⟩
  · obtain ⟨hl, hp, hr, htail, hreq⟩ := environment_frame he s.popEvent
    exact ⟨_, hstep, htail, .stayed (hpop.congr hl hp hr) hp hreq (.inr henv)⟩

end Sys2Proof.Machine
end

section
/-! PROOF. The operation that holds the lock along a run, and the request that waits for it (R5, R37, R189). -/

namespace Sys2Proof.Machine

/-! ## The run of the operation that holds the lock (R37, R112) -/

/-- The lock is free in `t`, and the outcome of `caller`'s operation is on its port, unless a reset was to come
in `s`. -/
def Released (caller : Nat) (s t : State) : Prop :=
  t.lock = false ∧ (caller ∈ t.rsp.map Prod.fst ∨ EnvEvent.reset ∈ s.env)

/-- What is released after steps already taken is released. -/
theorem eventually_released_of_reaches {c : Nat} {s t : State} (h : Reaches s t) (henv : t.env ⊆ s.env)
    (k : Eventually (Released c t) t) : Eventually (Released c s) s := by
  obtain ⟨u, hu, hfree, hans⟩ := k
  exact ⟨u, h.trans hu, hfree, hans.imp_right fun hreset => henv hreset⟩

/-- A step releases the operation, or leaves it in its phase or a later one. -/
theorem HeldStep.released_or_held {c : Nat} {s t : State} (h : HeldStep c s t) :
    Released c s t ∨ (t.HeldBy c ∧ t.phase.NoEarlier s.phase) := by
  cases h with
  | cutOff reset free => exact .inl ⟨free, .inr reset⟩
  | answered free _ delivered => exact .inl ⟨free, .inl delivered⟩
  | advanced held rank => exact .inr ⟨held, .inr rank⟩
  | stayed held phase => exact .inr ⟨held, .inl phase⟩

/-- As long as the operation has not been released, it is in the phase it was in or in a later one. -/
theorem released_or_held {c : Nat} (n : Nat) : ∀ {s u : State}, s.HeldBy c → runSteps n s = .next u →
    Eventually (Released c s) s ∨ (u.HeldBy c ∧ u.env ⊆ s.env ∧ u.phase.NoEarlier s.phase) := by
  induction n with
  | zero =>
    intro s u h hrun
    cases hrun
    exact .inr ⟨h, List.Subset.refl _, .inl rfl⟩
  | succ n ih =>
    intro s u h hrun
    obtain ⟨t, hstep, htail, hheld⟩ := step_held h
    have henv : t.env ⊆ s.env := htail ▸ List.tail_subset _
    rw [runSteps_step hstep] at hrun
    rcases hheld.released_or_held with hdone | ⟨ht, hts⟩
    · exact .inl ⟨t, .step hstep, hdone⟩
    · exact (ih ht hrun).imp (eventually_released_of_reaches (.step hstep) henv)
        fun ⟨hu, huenv, hut⟩ => ⟨hu, List.Subset.trans huenv henv, hut.trans hts⟩

/-- In a phase that moves no bytes the block needs one turn, which comes after the events before it. -/
theorem released_or_leaves_computing {c : Nat} {s : State} (h : s.HeldBy c) (hp : s.phase.transfer = false) :
    Eventually (Released c s) s ∨ Eventually (fun u => u.phase ≠ s.phase) s := by
  obtain ⟨t, hstep, htail, hheld⟩ := step_held h
  cases hheld with
  | cutOff reset free => exact .inl ⟨t, .step hstep, free, .inr reset⟩
  | answered free _ delivered => exact .inl ⟨t, .step hstep, free, .inl delivered⟩
  | advanced _ rank => exact .inr ⟨t, .step hstep, fun heq => rank.ne (congrArg Phase.rank heq)⟩
  | stayed held phase _ why =>
    have hne : s.env ≠ [] := why.resolve_left (by simp [hp])
    have hlt : t.env.length < s.env.length := by
      have := List.length_pos_of_ne_nil hne
      rw [htail, List.length_tail]
      omega
    have ht := released_or_leaves_computing held (phase ▸ hp)
    rw [phase] at ht
    exact ht.imp (eventually_released_of_reaches (.step hstep) (htail ▸ List.tail_subset _))
      (Eventually.of_reaches (.step hstep))
termination_by s.env.length

/-- Where every write and every read ends, so does every phase of the operation. -/
theorem released_or_leaves_phase {c : Nat} {s : State} (h : s.HeldBy c) (hw : WritePrompt s) (hr : ReadBounded s) :
    Eventually (Released c s) s ∨ Eventually (fun u => u.phase ≠ s.phase) s := by
  cases ht : s.phase.transfer with
  | false => exact released_or_leaves_computing h ht
  | true =>
    rcases (Phase.transfer_iff _).mp ht with hp | hp
    · exact .inr (hp ▸ hw s (.refl s) hp)
    · exact .inr (hp ▸ hr s (.refl s) hp)

/-- The operation that holds the lock releases it: each phase ends, and a later one follows (R37, R114). -/
theorem eventually_released {c : Nat} {s : State} (h : s.HeldBy c) (hw : WritePrompt s) (hr : ReadBounded s) :
    Eventually (Released c s) s := by
  rcases released_or_leaves_phase h hw hr with hdone | ⟨u, ⟨n, hrun⟩, hne⟩
  · exact hdone
  · rcases released_or_held n h hrun with hdone | ⟨hu, henv, heq | hlt⟩
    · exact hdone
    · exact absurd heq hne
    · obtain ⟨-, hwrite, hread⟩ := premises_reach ⟨n, hrun⟩
      exact eventually_released_of_reaches ⟨n, hrun⟩ henv (eventually_released hu (hwrite hw) (hread hr))
termination_by s.phase.rank

/-- Settles O55: every phase of the operation that holds the lock ends, by its own action or by a premise. -/
theorem answeredTransfersEndTheOperation : Obligations.AnsweredTransfersEndTheOperation := by
  intro s hinv hw hr hlock
  obtain ⟨t, ht, hfree, hans⟩ := eventually_released ⟨hinv.sequenced, hlock, rfl⟩ hw hr
  exact ⟨⟨t, ht, hfree⟩, fun hreset => ⟨t, ht, hfree, hans.resolve_right hreset⟩⟩

/-! ## The run of a pending request (R101, R102) -/

/-- The grant leaves the block as it is, or gives one caller the lock and takes its request alone (R101). -/
theorem grant_sequenced (op : OpCode) (f : BitVec 58 → HostOperands) (s : State) :
    s.grant op f = s ∨
    ∃ caller, (s.grant op f).HeldBy caller ∧ (s.grant op f).env = s.env ∧
      (s.grant op f).req = s.req.filter (fun r => r.1 != caller) := by
  rcases grant_cases op f s with ⟨-, hg⟩ | ⟨caller, w, -, -, hg⟩
  · exact .inl hg
  · rw [hg]
    refine .inr ⟨caller, ⟨?_, rfl, rfl⟩, rfl, rfl⟩
    cases op <;> exact ⟨by simp, by simp, by simp [Phase.transfer]⟩

/-- An action of an idle block keeps each pending request, or its caller now holds the lock. -/
theorem blockStep_pending {c : Nat} {s t : State} (hs : s.Sequenced) (hl : s.lock = false)
    (hb : blockStep s = .next t) (hc : c ∈ s.req.map Prod.fst) :
    t.env = s.env ∧ t.Sequenced ∧ (c ∈ t.req.map Prod.fst ∨ t.HeldBy c) := by
  rcases blockStep_of_idle (hs.lock_iff.mp hl) hl hb with ⟨arb, rfl⟩ | ⟨op, f, rfl⟩
  · exact ⟨rfl, hs.congr rfl rfl rfl, .inl hc⟩
  · rcases grant_sequenced op f s with hg | ⟨caller, hheld, henv, hreq⟩
    · rw [hg]
      exact ⟨rfl, hs, .inl hc⟩
    · refine ⟨henv, hheld.sequenced, ?_⟩
      by_cases hcc : c = caller
      · exact .inr (hcc ▸ hheld)
      · obtain ⟨r, hr, rfl⟩ := List.mem_map.mp hc
        exact .inl (hreq ▸ List.mem_map_of_mem (List.mem_filter.mpr ⟨hr, by simp [hcc]⟩))

/-- Without a reset, a step keeps each pending request, or its caller now holds the lock (R101, R102). -/
theorem step_pending {c : Nat} {s t : State} (hs : s.Sequenced) (hreset : EnvEvent.reset ∉ s.env)
    (hstep : step s = .next t) (hc : c ∈ s.req.map Prod.fst) :
    t.env = s.env.tail ∧ t.Sequenced ∧ (c ∈ t.req.map Prod.fst ∨ t.HeldBy c) := by
  cases hl : s.lock with
  | true =>
    obtain ⟨u, hu, htail, hheld⟩ := step_held ⟨hs, hl, rfl⟩
    cases hu.symm.trans hstep
    exact ⟨htail, hheld.sequenced, .inl (List.map_subset _ (hheld.req_subset hreset) hc)⟩
  | false =>
    have hpop : s.popEvent.Sequenced := hs.congr rfl rfl rfl
    rcases step_agent s with hblock | ⟨h, -⟩ | ⟨-, e, he, hevent⟩
    · exact blockStep_pending hpop hl (hblock.symm.trans hstep) hc
    · exact absurd h hreset
    · cases hevent.symm.trans hstep
      obtain ⟨hlock, hp, hr, htail, hreq⟩ := environment_frame he s.popEvent
      exact ⟨htail, hpop.congr hlock hp hr, .inl (List.map_subset _ hreq hc)⟩

/-- A request that is pending no more has been granted on the way, if there was no reset. -/
theorem granted_on_the_way {c : Nat} (n : Nat) : ∀ {s u : State}, s.Sequenced → EnvEvent.reset ∉ s.env →
    c ∈ s.req.map Prod.fst → runSteps n s = .next u → c ∉ u.req.map Prod.fst →
    ∃ t, Reaches s t ∧ t.HeldBy c ∧ EnvEvent.reset ∉ t.env := by
  induction n with
  | zero =>
    intro s u _ _ hc hrun hgone
    cases hrun
    exact absurd hc hgone
  | succ n ih =>
    intro s u hs hreset hc hrun hgone
    cases hstep : step s with
    | fault r => simp [runSteps, hstep] at hrun
    | refused r => simp [runSteps, hstep] at hrun
    | next t =>
      rw [runSteps_step hstep] at hrun
      obtain ⟨htail, ht, hpend | hheld⟩ := step_pending hs hreset hstep hc
      all_goals have hreset' : EnvEvent.reset ∉ t.env := fun h => hreset (List.mem_of_mem_tail (htail ▸ h))
      · obtain ⟨v, hv, hheld, henv⟩ := ih ht hreset' hpend hrun hgone
        exact ⟨v, (Reaches.step hstep).trans hv, hheld, henv⟩
      · exact ⟨t, .step hstep, hheld, hreset'⟩

/-- Settles O56: the arbiter grants the request, and the operation then releases the lock with its outcome delivered. -/
theorem waitingCallerIsAnswered : Obligations.WaitingCallerIsAnswered := by
  intro s caller hinv hfair hw hr hreset hc
  obtain ⟨u, ⟨n, hrun⟩, hgone⟩ := hfair s (.refl s) caller hc
  obtain ⟨t, hst, hheld, hreset'⟩ := granted_on_the_way n hinv.sequenced hreset hc hrun hgone
  obtain ⟨-, hwrite, hread⟩ := premises_reach hst
  obtain ⟨v, htv, -, hans⟩ := eventually_released hheld (hwrite hw) (hread hr)
  exact ⟨v, hst.trans htv, hans.resolve_right hreset'⟩

end Sys2Proof.Machine
end

section
/-! PROOF. What `ENCODE` and `DECODE` leave in the registers, and the row or frame `PHASE` selects
(R13, R62, R75, R82, R104, R108). -/

namespace Sys2Proof

/-! ## The frame codec -/

/-- The checksum of a span is the sum of its bytes in 8 bits (R70). -/
theorem checksum_cons (b : Byte) (span : List Byte) : checksum (b :: span) = b + checksum span := by
  simp [checksum, BitVec.ofNat_add]

/-- Packing undoes unpacking (R83). -/
theorem packValue_unpackValue (p0 p1 p2 p3 : Byte) : packValue (unpackValue p0 p1 p2 p3) = (p0, p1, p2, p3) := by
  simp only [packValue, unpackValue, Prod.mk.injEq]
  refine ⟨?_, ?_, ?_, ?_⟩ <;> ext i hi <;> grind

/-- A frame is determined by its fields (R50). -/
theorem frameWith_self (f : Frame) : frameWith f.b0 f.b1 f.b2 f.b3 f.value f.b8 = f := by
  simp [frameWith, Frame.value, packValue_unpackValue]

/-- The checksum byte is not in the span it is taken over (R7). -/
theorem frameWith_span (b0 b1 b2 b3 : Byte) (v : Value) (k l : Byte) :
    (frameWith b0 b1 b2 b3 v k).span = (frameWith b0 b1 b2 b3 v l).span := rfl

/-- A valid frame that begins with the address byte is `ENCODE` of its own fields (R87). -/
theorem encodeFrame_self {addr : Byte} {f : Frame} (h0 : f.b0 = addr) (hv : f.valid = true) :
    encodeFrame addr f.b1 f.b2 f.b3 f.value = f := by
  have hk : checksum f.span = f.b8 := (beq_iff_eq.mp hv).symm
  rw [encodeFrame, sealedFrame, ← h0, frameWith_span _ _ _ _ _ 0 f.b8, frameWith_self, hk, frameWith_self]

/-! ## Frames byte by byte -/

/-- The bytes before the next, and the next, are the bytes up to it. -/
theorem Frame.take_bytes_succ (f : Frame) {n : Nat} (h : n ≤ 8) :
    f.bytes.take n ++ [f.get n] = f.bytes.take (n + 1) := by
  interval_cases n <;> rfl

theorem Frame.get_set (f : Frame) (b : Byte) {n i : Nat} (hn : n ≤ 8) (hi : i ≤ 8) :
    (f.set n b).get i = if i = n then b else f.get i := by
  interval_cases n <;> interval_cases i <;> rfl

theorem Frame.eq_of_get {f g : Frame} (h : ∀ i ≤ 8, f.get i = g.get i) : f = g := by
  cases f
  cases g
  rw [Frame.mk.injEq]
  exact ⟨h 0 (by omega), h 1 (by omega), h 2 (by omega), h 3 (by omega), h 4 (by omega), h 5 (by omega),
    h 6 (by omega), h 7 (by omega), h 8 (by omega)⟩

/-- Frames that agree on their first `n` bytes agree on one more when it is written (R107). -/
theorem Frame.get_set_agree {f g : Frame} {n : Nat} (hn : n ≤ 8) (h : ∀ i < n, g.get i = f.get i) (b : Byte) :
    ∀ i < n + 1, (g.set n b).get i = (f.set n b).get i := by
  intro i hi
  rw [Frame.get_set g b hn (by omega), Frame.get_set f b hn (by omega)]
  split
  · rfl
  · exact h i (by omega)

end Sys2Proof

namespace Sys2Proof.Machine

/-! ## The registers after `ENCODE` and `DECODE` -/

/-- The accumulation of a span, byte by byte (R72). -/
theorem foldl_ckAdd (span : List Byte) : ∀ r : Regs, span.foldl Regs.ckAdd r =
    { r with acc := r.acc + checksum span, cnt := r.cnt + BitVec.ofNat 4 span.length } := by
  induction span with
  | nil => intro r; simp [checksum]
  | cons b span ih =>
    intro r
    simp [ih, checksum_cons, BitVec.add_assoc, BitVec.ofNat_add, BitVec.add_comm 1#4, Regs.ckAdd]

/-- The accumulator ends with the checksum of the span, the counter with its length (R75). -/
theorem Regs.ckRun_eq (r : Regs) (span : List Byte) :
    r.ckRun span = { r with acc := checksum span, cnt := BitVec.ofNat 4 span.length } := by
  simp [Regs.ckRun, foldl_ckAdd, Regs.ckClr]

/-- The six operand latches (R15). -/
def Regs.latches (r : Regs) : Nat × OpCode × Byte × Byte × Byte × Value :=
  (r.owner, r.op, r.cmd, r.type, r.bank, r.value)

theorem Regs.latches_eq_iff (r q : Regs) : q.latches = r.latches ↔
    q.owner = r.owner ∧ q.op = r.op ∧ q.cmd = r.cmd ∧ q.type = r.type ∧ q.bank = r.bank ∧ q.value = r.value := by
  simp only [Regs.latches, Prod.mk.injEq]

/-- `ENCODE` writes `TXF`, `ACC` and `CNT` (R104). -/
theorem Regs.encode_eq (r : Regs) (addr cmd type bank : Byte) (value : Value) :
    r.encode addr cmd type bank value =
      { r with txf := encodeFrame addr cmd type bank value
               acc := checksum (encodeFrame addr cmd type bank value).span, cnt := 8 } := by
  rw [Regs.encode, Regs.ckRun_eq]
  rfl

/-- `DECODE` writes `CKOK`, `ST`, `RV`, `ACC` and `CNT` (R108). -/
theorem Regs.decode_eq (r : Regs) (f : Frame) :
    r.decode f = { r with ckok := f.valid, st := f.b2, rv := f.value, acc := checksum f.span, cnt := 8 } := by
  have hk : ckokOf (checksum f.span) f.b8 = f.valid := Bool.beq_comm
  rw [Regs.decode, Regs.ckRun_eq, ← hk]
  rfl

theorem Regs.encode_latches (r : Regs) (addr cmd type bank : Byte) (value : Value) :
    (r.encode addr cmd type bank value).latches = r.latches := by
  rw [Regs.encode_eq]
  rfl

theorem Regs.decode_latches (r : Regs) (f : Frame) : (r.decode f).latches = r.latches := by
  rw [Regs.decode_eq]
  rfl

/-! ## The row or frame `PHASE` selects (R62) -/

/-- Whatever `TXF` holds, the action of `WRITE` is a store of its byte `CNT` (R62, R106): a frame that reads as a
command is `ENCODE` of what it reads as. -/
theorem blockStep_of_write_txf {s : State} (h : s.phase = .write) : blockStep s = writeByte s.regs.txf s := by
  have hb : blockStep s = Machine.exec s.emitted s := by simp only [blockStep, State.selected, h]
  have hx : Machine.exec s.inFlight s = writeByte s.regs.txf s := by
    simp only [State.inFlight, Machine.exec, execExec, exchange, h]
  rw [hb]
  unfold State.emitted decodeCommand
  split_ifs with h0 hv
  · exact hx
  · exact congrArg (writeByte · s) (encodeFrame_self (not_not.mp h0) hv)
  · exact hx

/-- The row of a status byte ends the exchange with its classification (R90 to R99). -/
theorem exec_replyRow_classify (status a m e : Byte) (v : Value) (s : State) :
    Machine.exec (replyRow status a m e v) s = .next (s.finish (classifyStatus status v)) := by
  unfold replyRow
  split
  case h_9 =>
    have hc : classifyStatus status v = .protocolStatusError (.unknownStatus status) := by simp only [classifyStatus]
    rw [hc]
    rfl
  all_goals
    rename_i hstatus
    simp only [classifyStatus, hstatus]
    rfl

/-- The reply row `CKOK` and `ST` select is the action of `CLASSIFY` (R110, R111). -/
theorem blockStep_of_classify_eq {s : State} (h : s.phase = .classify) : blockStep s = classifyPhase s := by
  have hb : blockStep s = Machine.exec s.replySelected s := by simp only [blockStep, State.selected, h]
  rw [hb, State.replySelected, classifyPhase]
  split
  · exact exec_replyRow_classify ..
  · rfl

/-- While an exchange is in flight, the action of the block is that of `EXEC` with the latched operands. -/
theorem blockStep_of_inExchange {s : State} (h : s.phase.inExchange = true) :
    blockStep s = exchange s.regs.cmd s.regs.type s.regs.bank s.regs.value s := by
  cases hp : s.phase with
  | idle => rw [hp] at h; cases h
  | sys => rw [hp] at h; cases h
  | chkconn => simp only [blockStep_of_chkconn hp, exchange, hp]
  | encode => simp only [blockStep_of_encode hp, exchange, hp]
  | tsend => simp only [blockStep_of_tsend hp, exchange, hp]
  | write => simp only [blockStep_of_write_txf hp, exchange, hp]
  | read => simp only [blockStep_of_read hp, exchange, hp]
  | decode => simp only [blockStep_of_decode hp, exchange, hp]
  | trecv => simp only [blockStep_of_trecv hp, exchange, hp]
  | classify => simp only [blockStep_of_classify_eq hp, exchange, hp]

theorem step_of_env_nil {s : State} (h : s.env = []) : step s = blockStep s := by simp only [step, h]

/-- Settles O40: a step with no event to come is the block's, and that is the action of `EXEC`. -/
theorem inFlightStepIsExec : Obligations.InFlightStepIsExec := by
  intro s henv hx
  rw [step_of_env_nil henv, blockStep_of_inExchange hx]
  rfl

/-! ## The operation a step decodes (R13, R62) -/

theorem blockStep_of_granted {s : State} {caller : Nat} {w : BitVec 58} (hp : s.phase = .idle)
    (hl : s.lock = false) (hg : s.granted = some (caller, w)) : blockStep s = Machine.exec (decodeRequest w) s := by
  obtain ⟨rest, harb, -⟩ := (granted_eq_some s caller w).mp hg
  simp [blockStep, State.selected, hp, hl, harb, hg]

/-- Settles O5: each clause is `PHASE` selecting what the decoder reads there, or an entry of `env` taken off. -/
theorem stepRunsDecodedOperation : Obligations.StepRunsDecodedOperation := by
  refine ⟨?_, ?_, ?_, ?_, fun s => step_of_env_nil, ?_⟩
  · intro s caller rest w henv hp hl harb hreq
    rw [step_of_env_nil henv, blockStep_of_granted hp hl ((granted_eq_some s caller w).mpr ⟨rest, harb, hreq⟩)]
  · intro s i henv hp hdec
    rw [step_of_env_nil henv]
    simp only [blockStep, State.selected, hp, State.emitted, hdec]
  · intro s henv hp hck hst hrv
    rw [step_of_env_nil henv]
    simp only [blockStep, State.selected, hp, State.replySelected, decodeReply, hck, hst, hrv]
  · intro s rest henv
    simp only [step, henv]
  · intro s e rest henv hne
    cases e with
    | block => exact absurd rfl hne
    | _ => simp only [step, henv]

end Sys2Proof.Machine
end

section
/-! PROOF. Who writes `CONN`, and that nothing writes the parameters (R5, R10, R20). -/

namespace Sys2Proof.Machine

/-! ## What an operation leaves of the parameters and of `CONN` -/

/-- The next state of `r`, if it has one, has the parameters and the `CONN` of `s`. -/
def KeepsCfgConn (s : State) (r : Res) : Prop :=
  match r with
  | .next t => t.cfg = s.cfg ∧ t.conn = s.conn
  | .fault _ => True
  | .refused _ => True

theorem grant_cfg_conn (op : OpCode) (f : BitVec 58 → HostOperands) (s : State) :
    (s.grant op f).cfg = s.cfg ∧ (s.grant op f).conn = s.conn := by
  rcases grant_cases op f s with ⟨-, hg⟩ | ⟨_, _, -, -, hg⟩ <;> rw [hg] <;> exact ⟨rfl, rfl⟩

theorem writeByte_keeps (f : Frame) (s : State) : KeepsCfgConn s (writeByte f s) := by
  rcases writeByte_cases f s with
    ⟨-, hw⟩ | ⟨-, ⟨-, hw⟩ | ⟨_, -, -, hw⟩ | ⟨_, -, -, hw⟩ | ⟨_, _, _, -, hw⟩⟩ <;> rw [hw]
  · trivial
  all_goals exact ⟨rfl, rfl⟩

theorem readByte_keeps (s : State) : KeepsCfgConn s (readByte s) := by
  rcases readByte_cases s with
    ⟨-, hr⟩ | ⟨-, ⟨-, hr⟩ | ⟨_, _, _, -, -, -, hr⟩ | ⟨_, _, _, -, -, -, hr⟩ | ⟨_, _, -, hr⟩⟩ <;> rw [hr]
  · trivial
  all_goals exact ⟨rfl, rfl⟩

/-- No action of `EXEC` writes `CONN` (R10). -/
theorem exchange_keeps (cmd type bank : Byte) (value : Value) (s : State) :
    KeepsCfgConn s (exchange cmd type bank value s) := by
  unfold exchange
  split
  · exact grant_cfg_conn ..
  · exact ⟨rfl, rfl⟩
  · unfold checkConn
    split <;> exact ⟨rfl, rfl⟩
  · exact ⟨rfl, rfl⟩
  · exact ⟨rfl, rfl⟩
  · exact writeByte_keeps ..
  · exact readByte_keeps s
  · exact ⟨rfl, rfl⟩
  · unfold traceReceive
    split <;> exact ⟨rfl, rfl⟩
  · unfold classifyPhase
    split <;> exact ⟨rfl, rfl⟩

/-- Every operation but `ATTACH` and `DETACH` leaves `CONN` alone (R10). -/
theorem exec_keeps {i : Instr} (ha : i ≠ .attach) (hd : i ≠ .detach) (s : State) :
    KeepsCfgConn s (Machine.exec i s) := by
  cases i with
  | attach => exact absurd rfl ha
  | detach => exact absurd rfl hd
  | exec cmd type bank value => exact exchange_keeps ..
  | rotateRight motor velocity => exact exchange_keeps ..
  | cmdf cmd type bank value => exact writeByte_keeps ..
  | hreqReserved => trivial
  | _ => exact ⟨rfl, rfl⟩

/-- `ATTACH` and `DETACH` write `CONN` in `SYS`, with their own `OP`, and nowhere else (R120, R121). -/
theorem handleRequest_cfg_conn {op : OpCode} {conn : Bool} {s t : State} (h : handleRequest op conn s = .next t) :
    t.cfg = s.cfg ∧ (t.conn = s.conn ∨ (s.phase = .sys ∧ s.regs.op = op ∧ t.conn = conn)) := by
  unfold handleRequest at h
  split at h
  · cases h
    obtain ⟨hcfg, hconn⟩ := grant_cfg_conn op requestOperands s
    exact ⟨hcfg, .inl hconn⟩
  · rename_i hp
    split at h <;> cases h
    · exact ⟨rfl, .inr ⟨hp, ‹_›, rfl⟩⟩
    · exact ⟨rfl, .inl rfl⟩
  · cases h
    exact ⟨rfl, .inl rfl⟩

/-- What any operation does to the parameters and to `CONN`, in any state. -/
theorem exec_cfg_conn {i : Instr} {s t : State} (h : Machine.exec i s = .next t) :
    t.cfg = s.cfg ∧ (t.conn = s.conn ∨ (s.phase = .sys ∧
      ((i = .attach ∧ s.regs.op = .attach ∧ t.conn = true) ∨
        (i = .detach ∧ s.regs.op = .detach ∧ t.conn = false)))) := by
  by_cases ha : i = .attach
  · subst ha
    obtain ⟨hcfg, hconn⟩ := handleRequest_cfg_conn h
    exact ⟨hcfg, hconn.imp_right fun ⟨hp, hop, hc⟩ => ⟨hp, .inl ⟨rfl, hop, hc⟩⟩⟩
  by_cases hd : i = .detach
  · subst hd
    obtain ⟨hcfg, hconn⟩ := handleRequest_cfg_conn h
    exact ⟨hcfg, hconn.imp_right fun ⟨hp, hop, hc⟩ => ⟨hp, .inr ⟨rfl, hop, hc⟩⟩⟩
  · have hk := exec_keeps ha hd s
    rw [h] at hk
    obtain ⟨hcfg, hconn⟩ := hk
    exact ⟨hcfg, .inl hconn⟩

/-! ## What a step leaves of them -/

/-- An action of the block drops choices of the arbiter, or is the operation `PHASE` selects (R62). -/
theorem blockStep_next {s t : State} (h : blockStep s = .next t) :
    (∃ arb, t = { s with arb := arb }) ∨ ∃ i, Machine.exec i s = .next t := by
  unfold blockStep at h
  split at h
  · cases h
    exact .inl ⟨s.arb, rfl⟩
  · cases h
    exact .inl ⟨_, rfl⟩
  · cases h
  · exact .inr ⟨_, h⟩

theorem blockStep_cfg_conn {s t : State} (h : blockStep s = .next t) :
    t.cfg = s.cfg ∧ (t.conn = s.conn ∨ (s.phase = .sys ∧
      ((s.regs.op = .attach ∧ t.conn = true) ∨ (s.regs.op = .detach ∧ t.conn = false)))) := by
  rcases blockStep_next h with ⟨arb, rfl⟩ | ⟨i, hi⟩
  · exact ⟨rfl, .inl rfl⟩
  · obtain ⟨hcfg, hconn⟩ := exec_cfg_conn hi
    exact ⟨hcfg, hconn.imp_right fun ⟨hp, hc⟩ => ⟨hp, hc.imp And.right And.right⟩⟩

/-- But for a reset, an event leaves the parameters, `CONN` and `TXS` alone (R123). -/
theorem environment_cfg_conn_txs {e : EnvEvent} (he : e ≠ .reset) (s : State) :
    (s.environment e).cfg = s.cfg ∧ (s.environment e).conn = s.conn ∧ (s.environment e).txs = s.txs := by
  cases e with
  | reset => exact absurd rfl he
  | present caller word =>
    by_cases hp : s.mayPresent caller <;> simp [State.environment, hp]
  | _ => exact ⟨rfl, rfl, rfl⟩

/-- Settles O43: the block writes `CONN` in `SYS`, where the invariant has the lock held; of the other agents only a
reset does. -/
theorem connChangesOnlyInSys : Obligations.ConnChangesOnlyInSys := by
  refine ⟨fun s t hinv hstep hne => ?_, fun i s t h hne => (exec_cfg_conn h).2.resolve_left hne⟩
  have hlock : s.phase = .sys → s.lock = true := fun hp => by
    rw [← Bool.not_eq_false, hinv.lock_iff, hp]
    nofun
  rcases step_cases s with ⟨henv, hs⟩ | ⟨rest, henv, hs⟩ | ⟨e, rest, henv, -, hs⟩ <;> rw [hs] at hstep
  · obtain ⟨hp, hc⟩ := (blockStep_cfg_conn hstep).2.resolve_left hne
    exact .inl ⟨.inl henv, hlock hp, hp, hc⟩
  · obtain ⟨hp, hc⟩ := (blockStep_cfg_conn hstep).2.resolve_left hne
    exact .inl ⟨.inr ⟨rest, henv⟩, hlock hp, hp, hc⟩
  · cases hstep
    by_cases he : e = .reset
    · subst he
      exact .inr ⟨rest, henv, rfl⟩
    · exact absurd (environment_cfg_conn_txs he _).2.1 hne

theorem step_cfg {s t : State} (h : step s = .next t) : t.cfg = s.cfg := by
  rcases step_agent s with hs | ⟨-, hs⟩ | ⟨-, e, he, hs⟩ <;> rw [hs] at h
  · exact (blockStep_cfg_conn h).1
  · cases h
    rfl
  · cases h
    exact (environment_cfg_conn_txs he _).1

/-- Settles O44: no agent and no operation writes the parameters, and byte 0 of the frame `ENCODE` builds is `ADDR`. -/
theorem addressIsHardwired : Obligations.AddressIsHardwired := by
  refine ⟨fun s t => step_cfg, fun i s t h => (exec_cfg_conn h).1, rfl, ?_⟩
  intro s t cmd type bank value h
  cases h
  exact congrArg (·.txf.b0) (Regs.encode_eq s.regs s.cfg.addr cmd type bank value)

end Sys2Proof.Machine
end

section
/-! PROOF. What an action of a locked block leaves alone (R15, R48, R101), and the invariant of the block, part by
part: the sequencer (`State.Sequenced`), the registers and the TX stream of the exchange in flight, the callers. -/

namespace Sys2Proof.Machine

/-! ## The lock and the operand latches -/

/-- What an action of the block does to the operation that holds the lock. -/
inductive LockedAction (s t : State) : Prop
  /-- It answers the owner and frees the lock (R112). -/
  | ended (free : t.lock = false) (idle : t.phase = .idle) (req : t.req = s.req) (arb : t.arb = s.arb)
      (answered : t.rsp.map Prod.fst = s.rsp.map Prod.fst ++ [s.regs.owner])
  /-- It keeps the lock, and with it the operand latches (R15). -/
  | kept (held : t.lock = true) (latches : t.regs.latches = s.regs.latches) (req : t.req = s.req) (arb : t.arb = s.arb)
      (rsp : t.rsp = s.rsp)

theorem LockedAction.finish {s u : State} (o : OpOutcome) (hreq : u.req = s.req) (harb : u.arb = s.arb)
    (hrsp : u.rsp = s.rsp) (howner : u.regs.owner = s.regs.owner) : LockedAction s (u.finish o) :=
  .ended rfl rfl hreq harb (by simp [hrsp, howner])

theorem writeByte_locked {f : Frame} {s t : State} (hl : s.lock = true) (h : writeByte f s = .next t) :
    LockedAction s t := by
  rcases writeByte_cases f s with
    ⟨-, hw⟩ | ⟨-, ⟨-, hw⟩ | ⟨_, -, -, hw⟩ | ⟨_, -, -, hw⟩ | ⟨_, _, _, -, hw⟩⟩ <;> cases hw.symm.trans h
  · exact .kept hl rfl rfl rfl rfl
  · exact .kept hl rfl rfl rfl rfl
  · exact .kept hl rfl rfl rfl rfl
  · exact .finish _ rfl rfl rfl rfl

theorem readByte_locked {s t : State} (hl : s.lock = true) (h : readByte s = .next t) : LockedAction s t := by
  rcases readByte_cases s with
    ⟨-, hr⟩ | ⟨-, ⟨-, hr⟩ | ⟨_, _, _, -, -, -, hr⟩ | ⟨_, _, _, -, -, -, hr⟩ | ⟨_, _, -, hr⟩⟩ <;> cases hr.symm.trans h
  · exact .kept hl rfl rfl rfl rfl
  · exact .kept hl rfl rfl rfl rfl
  · exact .kept hl rfl rfl rfl rfl
  · exact .finish _ rfl rfl rfl rfl

/-- While the lock is held nothing is granted, and the latches stand until the operation ends (R15, R48, R101). -/
theorem blockStep_locked {s t : State} (hl : s.lock = true) (h : blockStep s = .next t) : LockedAction s t := by
  cases hp : s.phase with
  | idle =>
    simp only [blockStep, State.selected, hp, hl, Bool.true_or, if_true] at h
    cases h
    exact .kept hl rfl rfl rfl rfl
  | sys =>
    cases hop : s.regs.op with
    | exec =>
      simp only [blockStep, State.selected, hp, hop] at h
      cases h
    | attach =>
      obtain ⟨conn, hb⟩ := blockStep_of_sys hp (by simp [hop])
      cases hb.symm.trans h
      exact .finish _ rfl rfl rfl rfl
    | detach =>
      obtain ⟨conn, hb⟩ := blockStep_of_sys hp (by simp [hop])
      cases hb.symm.trans h
      exact .finish _ rfl rfl rfl rfl
  | chkconn =>
    rw [blockStep_of_chkconn hp, checkConn] at h
    split at h <;> cases h
    · exact .kept hl rfl rfl rfl rfl
    · exact .finish _ rfl rfl rfl rfl
  | encode =>
    cases (blockStep_of_encode hp).symm.trans h
    exact .kept hl (Regs.encode_latches ..) rfl rfl rfl
  | tsend =>
    cases (blockStep_of_tsend hp).symm.trans h
    exact .kept hl rfl rfl rfl rfl
  | write => exact writeByte_locked hl ((blockStep_of_write_txf hp).symm.trans h)
  | read => exact readByte_locked hl ((blockStep_of_read hp).symm.trans h)
  | decode =>
    cases (blockStep_of_decode hp).symm.trans h
    exact .kept hl (Regs.decode_latches ..) rfl rfl rfl
  | trecv =>
    rw [blockStep_of_trecv hp, traceReceive] at h
    split at h <;> cases h <;> exact .kept hl rfl rfl rfl rfl
  | classify =>
    obtain ⟨o, hb⟩ := blockStep_of_classify hp
    cases hb.symm.trans h
    exact .finish _ rfl rfl rfl rfl

/-- Settles O41: the step is an action of a locked block. -/
theorem noGrantWhileLocked : Obligations.NoGrantWhileLocked := by
  intro s t henv hl h
  rw [step_of_env_nil henv] at h
  cases blockStep_locked hl h with
  | ended free _ req arb _ => exact ⟨req, arb, fun hheld => absurd (free.symm.trans hheld) Bool.false_ne_true⟩
  | kept _ latches req arb _ => exact ⟨req, arb, fun _ => (Regs.latches_eq_iff ..).mp latches⟩

/-! ## The three parts of the invariant -/

/-- The part of the invariant an exchange carries from phase to phase: its registers and what it has sent. -/
structure State.Carries (s : State) : Prop where
  /-- The phases after the grant are for `EXEC` (R101). -/
  exchange_op : s.phase.inExchange = true → s.regs.op = .exec
  /-- `CONN = 1` after its test (R122). -/
  conn_held : s.phase.connected = true → s.conn = true
  /-- `TXF` holds `ENCODE` of the operands (R104). -/
  frame_built : s.phase.framed = true → s.regs.txf = s.frame
  /-- `CKOK`, `ST` and `RV` are the decode of `RXF` (R108). -/
  decoded : s.phase.decoded = true →
    s.regs.ckok = s.regs.rxf.valid ∧ s.regs.st = s.regs.rxf.b2 ∧ s.regs.rv = s.regs.rxf.value
  /-- In `WRITE`, `TXS` ends with the bytes accepted so far (R106). -/
  sent_part : s.phase = .write → ∃ before, s.txs = before ++ s.regs.txf.bytes.take s.regs.cnt.toNat
  /-- From `READ` on, `TXS` ends with the whole frame (R45). -/
  sent_whole : s.phase.sent = true → ∃ before, s.txs = before ++ s.regs.txf.bytes

/-- The part of the invariant that is about the callers (R102). -/
structure State.Queued (s : State) : Prop where
  one_each : s.outstanding.Nodup
  callers : ∀ c ∈ s.outstanding, c < s.cfg.nCallers

theorem State.inv_iff (s : State) : s.Inv ↔ s.Sequenced ∧ s.Carries ∧ s.Queued := by
  constructor
  · intro h
    exact ⟨h.sequenced, ⟨h.exchange_op, h.conn_held, h.frame_built, h.decoded, h.sent_part, h.sent_whole⟩,
      ⟨h.one_each, h.callers⟩⟩
  · rintro ⟨⟨hlock, hsys, hcnt⟩, ⟨hop, hconn, hframe, hdec, hpart, hwhole⟩, hone, hcallers⟩
    exact ⟨hlock, hsys, hop, hconn, hframe, hcnt, hdec, hpart, hwhole, hone, hcallers⟩

/-! ## The callers: each step keeps, moves or drops operations outstanding, but for a request presented -/

/-- Operations that only move between the ports, or end, leave every caller with one at most. -/
theorem State.Queued.of_subperm {s t : State} (h : s.Queued) (hsub : t.outstanding.Subperm s.outstanding)
    (hcfg : t.cfg = s.cfg) : t.Queued := by
  obtain ⟨l, hperm, hsublist⟩ := hsub
  exact ⟨hperm.nodup_iff.mp (h.one_each.sublist hsublist), fun c hc => by
    rw [hcfg]
    exact h.callers c (hsublist.subset (hperm.mem_iff.mpr hc))⟩

/-- The operation in flight becomes the last outcome, or stays in flight (R112). -/
theorem LockedAction.outstanding_eq {s t : State} (hl : s.lock = true) (h : LockedAction s t) :
    t.outstanding = s.outstanding := by
  cases h with
  | ended free _ req _ answered => simp [State.outstanding, free, req, answered, hl]
  | kept held latches req _ rsp =>
    obtain ⟨howner, -⟩ := (Regs.latches_eq_iff ..).mp latches
    simp [State.outstanding, held, req, rsp, hl, howner]

theorem mem_req_of_granted {s : State} {caller : Nat} {w : BitVec 58} (h : s.granted = some (caller, w)) :
    caller ∈ s.req.map Prod.fst := by
  obtain ⟨rest, -, hreq⟩ := (granted_eq_some s caller w).mp h
  obtain ⟨r, hfind, rfl⟩ := Option.map_eq_some_iff.mp hreq
  have hr := List.find?_some hfind
  exact List.mem_map.mpr ⟨r, List.mem_of_find?_eq_some hfind, beq_iff_eq.mp hr⟩

theorem map_fst_filter_ne (req : List (Nat × BitVec 58)) (caller : Nat) :
    (req.filter (fun r => r.1 != caller)).map Prod.fst = (req.map Prod.fst).filter (· != caller) := by
  rw [List.filter_map]
  rfl

/-- The grant puts the pending operation of one caller in flight (R101). -/
theorem grant_outstanding_perm {s : State} (h : s.Queued) (op : OpCode) (f : BitVec 58 → HostOperands) :
    (s.grant op f).outstanding.Perm s.outstanding := by
  rcases grant_cases op f s with ⟨-, hg⟩ | ⟨caller, w, hl, hw, hg⟩
  · rw [hg]
  · have hnodup : (s.req.map Prod.fst).Nodup := by
      have hone := h.one_each
      rw [State.outstanding, List.append_assoc] at hone
      exact hone.of_append_left
    have herase : (s.grant op f).req.map Prod.fst = (s.req.map Prod.fst).erase caller := by
      rw [hg, map_fst_filter_ne, hnodup.erase_eq_filter]
    have hout : (s.grant op f).outstanding =
        (s.req.map Prod.fst).erase caller ++ s.rsp.map Prod.fst ++ [caller] := by
      rw [State.outstanding, herase, hg]
      rfl
    have hcons : (caller :: (s.req.map Prod.fst).erase caller).Perm (s.req.map Prod.fst) :=
      (List.perm_cons_erase (mem_req_of_granted hw)).symm
    have hfree : s.outstanding = s.req.map Prod.fst ++ s.rsp.map Prod.fst := by simp [State.outstanding, hl]
    rw [hout, hfree]
    exact (List.perm_append_singleton ..).trans (hcons.append_right _)

theorem any_fst_beq {α : Type} (l : List (Nat × α)) (caller : Nat) :
    l.any (fun r => r.1 == caller) = decide (caller ∈ l.map Prod.fst) := by
  rw [Bool.eq_iff_iff]
  simp

/-- A caller may present if it exists and has nothing outstanding (R102). -/
theorem mayPresent_iff (s : State) (caller : Nat) :
    s.mayPresent caller = true ↔ caller < s.cfg.nCallers ∧ caller ∉ s.outstanding := by
  rw [State.mayPresent, any_fst_beq, any_fst_beq, State.outstanding]
  cases s.lock <;> simp [-List.mem_map, and_assoc, @eq_comm _ s.regs.owner]

/-- Every event of the environment leaves each caller with at most one operation (R102, R123). -/
theorem environment_queued {s : State} (h : s.Queued) (e : EnvEvent) : (s.environment e).Queued := by
  cases e with
  | present caller word =>
    by_cases hmay : s.mayPresent caller = true
    · obtain ⟨hlt, hnew⟩ := (mayPresent_iff s caller).mp hmay
      have hperm : (s.environment (.present caller word)).outstanding.Perm (caller :: s.outstanding) := by
        simp only [State.environment, hmay, if_true, State.outstanding, List.map_append, List.map_cons, List.map_nil,
          List.append_assoc, List.singleton_append]
        exact List.perm_middle
      obtain ⟨hcfg, -, -⟩ := environment_cfg_conn_txs (e := .present caller word) (by simp) s
      refine ⟨hperm.nodup_iff.mpr (List.nodup_cons.mpr ⟨hnew, h.one_each⟩), fun c hc => ?_⟩
      rw [hcfg]
      rcases List.mem_cons.mp (hperm.mem_iff.mp hc) with rfl | hold
      · exact hlt
      · exact h.callers c hold
    · rw [State.environment, if_neg hmay]
      exact h
  | take caller =>
    refine h.of_subperm (List.Sublist.subperm ?_) rfl
    exact (((List.filter_sublist).map _).append_left _).append_right _
  | reset =>
    refine h.of_subperm (List.Sublist.subperm ?_) rfl
    simp [State.outstanding, State.environment]
  | _ => exact ⟨h.one_each, h.callers⟩

/-! ## The exchange in flight -/

theorem State.Carries.of_idle {s : State} (h : s.phase = .idle) : s.Carries := by
  constructor <;> rw [h] <;> nofun

theorem State.Carries.congr {s t : State} (h : s.Carries) (hp : t.phase = s.phase) (hr : t.regs = s.regs)
    (hconn : t.conn = s.conn) (hcfg : t.cfg = s.cfg) (htxs : t.txs = s.txs) : t.Carries := by
  have hframe : t.frame = s.frame := by rw [State.frame, hcfg, hr, State.frame]
  constructor <;> simp only [hp, hr, hconn, hframe, htxs]
  · exact h.exchange_op
  · exact h.conn_held
  · exact h.frame_built
  · exact h.decoded
  · exact h.sent_part
  · exact h.sent_whole

theorem toNat_add_one {n : BitVec 4} (h : n.toNat < 8) : (n + 1).toNat = n.toNat + 1 := by bv_omega

/-- A store accepted is the next byte of the frame (R106). -/
theorem writeByte_carries {s t : State} (h : s.Carries) (hp : s.phase = .write)
    (hw : writeByte s.regs.txf s = .next t) : t.Carries := by
  obtain ⟨before, hsent⟩ := h.sent_part hp
  have hop : s.regs.op = .exec := h.exchange_op (by rw [hp]; rfl)
  have hconn : s.conn = true := h.conn_held (by rw [hp]; rfl)
  have hframe : s.regs.txf = s.frame := h.frame_built (by rw [hp]; rfl)
  rcases writeByte_cases s.regs.txf s with
    ⟨-, he⟩ | ⟨h8, ⟨-, he⟩ | ⟨_, -, hc, he⟩ | ⟨_, -, hc, he⟩ | ⟨_, _, _, -, he⟩⟩ <;> cases he.symm.trans hw
  · exact h
  · refine ⟨fun _ => hop, fun _ => hconn, fun _ => hframe, nofun, nofun, fun _ => ⟨before, ?_⟩⟩
    rw [hsent, List.append_assoc, Frame.take_bytes_succ _ h8, hc]
    rfl
  · refine ⟨fun _ => hop, fun _ => hconn, fun _ => hframe, nofun, fun _ => ⟨before, ?_⟩, nofun⟩
    rw [hsent, List.append_assoc, Frame.take_bytes_succ _ h8, toNat_add_one hc]
  · exact .of_idle rfl

/-- A load changes `RXF` and `CNT` alone (R107). -/
theorem readByte_carries {s t : State} (h : s.Carries) (hp : s.phase = .read) (hr : readByte s = .next t) :
    t.Carries := by
  have hop : s.regs.op = .exec := h.exchange_op (by rw [hp]; rfl)
  have hconn : s.conn = true := h.conn_held (by rw [hp]; rfl)
  have hframe : s.regs.txf = s.frame := h.frame_built (by rw [hp]; rfl)
  have hsent := h.sent_whole (by rw [hp]; rfl)
  rcases readByte_cases s with
    ⟨-, he⟩ | ⟨-, ⟨-, he⟩ | ⟨_, _, _, -, -, -, he⟩ | ⟨_, _, _, -, -, -, he⟩ | ⟨_, _, -, he⟩⟩ <;>
    cases he.symm.trans hr
  · exact h
  · exact ⟨fun _ => hop, fun _ => hconn, fun _ => hframe, nofun, nofun, fun _ => hsent⟩
  · exact ⟨fun _ => hop, fun _ => hconn, fun _ => hframe, nofun, nofun, fun _ => hsent⟩
  · exact .of_idle rfl

/-- Each action of a locked block hands on what the next phase needs (R103 to R111). -/
theorem blockStep_carries {s t : State} (h : s.Carries) (hidle : s.phase ≠ .idle)
    (hop : s.phase = .sys → s.regs.op ≠ .exec)
    (hb : blockStep s = .next t) : t.Carries := by
  cases hp : s.phase with
  | idle => exact absurd hp hidle
  | sys =>
    obtain ⟨conn, he⟩ := blockStep_of_sys hp (hop hp)
    cases he.symm.trans hb
    exact .of_idle rfl
  | chkconn =>
    rw [blockStep_of_chkconn hp, checkConn] at hb
    split at hb <;> cases hb
    · exact ⟨fun _ => h.exchange_op (by rw [hp]; rfl), fun _ => ‹_›, nofun, nofun, nofun, nofun⟩
    · exact .of_idle rfl
  | encode =>
    cases (blockStep_of_encode hp).symm.trans hb
    rw [Regs.encode_eq]
    exact ⟨fun _ => h.exchange_op (by rw [hp]; rfl), fun _ => h.conn_held (by rw [hp]; rfl), fun _ => rfl, nofun, nofun,
      nofun⟩
  | tsend =>
    cases (blockStep_of_tsend hp).symm.trans hb
    exact ⟨fun _ => h.exchange_op (by rw [hp]; rfl), fun _ => h.conn_held (by rw [hp]; rfl),
      fun _ => h.frame_built (by rw [hp]; rfl), nofun, fun _ => ⟨s.txs, (List.append_nil _).symm⟩, nofun⟩
  | write => exact writeByte_carries h hp ((blockStep_of_write_txf hp).symm.trans hb)
  | read => exact readByte_carries h hp ((blockStep_of_read hp).symm.trans hb)
  | decode =>
    cases (blockStep_of_decode hp).symm.trans hb
    rw [Regs.decode_eq]
    exact ⟨fun _ => h.exchange_op (by rw [hp]; rfl), fun _ => h.conn_held (by rw [hp]; rfl),
      fun _ => h.frame_built (by rw [hp]; rfl), fun _ => ⟨rfl, rfl, rfl⟩, nofun, fun _ => h.sent_whole (by rw [hp]; rfl)⟩
  | trecv =>
    rw [blockStep_of_trecv hp, traceReceive] at hb
    split at hb <;> cases hb <;>
      exact ⟨fun _ => h.exchange_op (by rw [hp]; rfl), fun _ => h.conn_held (by rw [hp]; rfl),
        fun _ => h.frame_built (by rw [hp]; rfl), fun _ => h.decoded (by rw [hp]; rfl), nofun,
        fun _ => h.sent_whole (by rw [hp]; rfl)⟩
  | classify =>
    obtain ⟨o, he⟩ := blockStep_of_classify hp
    cases he.symm.trans hb
    exact .of_idle rfl

/-- The grant starts an exchange in `CHKCONN`, with nothing but `OP` to hold, and the others in `SYS` (R101). -/
theorem grant_carries {s : State} (h : s.Carries) (op : OpCode) (f : BitVec 58 → HostOperands) :
    (s.grant op f).Carries := by
  rcases grant_cases op f s with ⟨-, hg⟩ | ⟨caller, w, -, -, hg⟩ <;> rw [hg]
  · exact h
  · cases op with
    | exec => exact ⟨fun _ => rfl, nofun, nofun, nofun, nofun, nofun⟩
    | attach => exact ⟨nofun, nofun, nofun, nofun, nofun, nofun⟩
    | detach => exact ⟨nofun, nofun, nofun, nofun, nofun, nofun⟩

/-! ## Every step keeps the invariant -/

/-- The entry of `env` taken off is no part of the invariant. -/
theorem State.Inv.popEvent {s : State} (h : s.Inv) : s.popEvent.Inv := by
  obtain ⟨hseq, hcar, hq⟩ := s.inv_iff.mp h
  exact (State.inv_iff _).mpr ⟨hseq.congr rfl rfl rfl, hcar.congr rfl rfl rfl rfl rfl, hq.one_each, hq.callers⟩

theorem blockStep_locked_inv {s t : State} (h : s.Inv) (hl : s.lock = true) (hb : blockStep s = .next t) : t.Inv := by
  obtain ⟨hseq, hcar, hq⟩ := s.inv_iff.mp h
  have hheld : s.HeldBy s.regs.owner := ⟨hseq, hl, rfl⟩
  obtain ⟨u, hu, -, hstep⟩ := blockStep_held hheld
  cases hu.symm.trans hb
  have hout := (blockStep_locked hl hb).outstanding_eq hl
  exact (State.inv_iff t).mpr ⟨hstep.sequenced, blockStep_carries hcar hheld.phase_ne_idle hseq.sys_op hb,
    hq.of_subperm (by rw [hout]) (blockStep_cfg_conn hb).1⟩

theorem blockStep_free_inv {s t : State} (h : s.Inv) (hl : s.lock = false) (hb : blockStep s = .next t) : t.Inv := by
  obtain ⟨hseq, hcar, hq⟩ := s.inv_iff.mp h
  rcases blockStep_of_idle (hseq.lock_iff.mp hl) hl hb with ⟨arb, rfl⟩ | ⟨op, f, rfl⟩
  · exact (State.inv_iff _).mpr ⟨hseq.congr rfl rfl rfl, hcar.congr rfl rfl rfl rfl rfl, hq.one_each, hq.callers⟩
  · have hgrant : (s.grant op f).Sequenced := by
      rcases grant_sequenced op f s with hg | ⟨caller, hheld, -, -⟩
      · rw [hg]
        exact hseq
      · exact hheld.sequenced
    exact (State.inv_iff _).mpr ⟨hgrant, grant_carries hcar op f,
      hq.of_subperm (grant_outstanding_perm hq op f).subperm (grant_cfg_conn op f s).1⟩

theorem environment_inv {s : State} (h : s.Inv) (e : EnvEvent) : (s.environment e).Inv := by
  obtain ⟨hseq, hcar, hq⟩ := s.inv_iff.mp h
  refine (State.inv_iff _).mpr ⟨?_, ?_, environment_queued hq e⟩ <;> by_cases he : e = .reset
  · subst he
    exact .of_idle rfl rfl
  · obtain ⟨hl, hp, hr, -, -⟩ := environment_frame he s
    exact hseq.congr hl hp hr
  · subst he
    exact .of_idle rfl
  · obtain ⟨-, hp, hr, -, -⟩ := environment_frame he s
    obtain ⟨hcfg, hconn, htxs⟩ := environment_cfg_conn_txs he s
    exact hcar.congr hp hr hconn hcfg htxs

/-- Settles O48: whoever moves, each of the three parts of the invariant is kept. -/
theorem stepKeepsInvariant : Obligations.StepKeepsInvariant := by
  intro s t hinv hstep
  rcases step_agent s with hs | ⟨-, hs⟩ | ⟨-, e, -, hs⟩ <;> have hnext := hs.symm.trans hstep
  · cases hl : s.lock with
    | true => exact blockStep_locked_inv hinv.popEvent hl hnext
    | false => exact blockStep_free_inv hinv.popEvent hl hnext
  · cases hnext
    exact environment_inv hinv.popEvent .reset
  · cases hnext
    exact environment_inv hinv.popEvent e

/-- Settles O45: nothing is in flight or outstanding after reset, so each part of the invariant holds, and the empty
stream is the concatenation of no segments. -/
theorem resetState : Obligations.ResetState := by
  intro p
  have hinv : (State.resetWith p).Inv :=
    (State.inv_iff _).mpr ⟨.of_idle rfl rfl, .of_idle rfl, ⟨List.nodup_nil, nofun⟩⟩
  exact ⟨rfl, rfl, rfl, rfl, rfl, rfl, hinv, [], nofun, rfl⟩

end Sys2Proof.Machine
end

section
/-! PROOF. What the transient registers hold between exchanges reaches nothing (R12): runs that differ in dead
registers alone go side by side. In each phase the registers that a later rule reads before it writes them are live. -/

namespace Sys2Proof.Machine

/-! ## Other transient registers -/

/-- The state with other transient registers (R12). -/
def State.withRegs (q : Regs) (s : State) : State := { s with regs := q }

@[simp] theorem State.withRegs_conn (q : Regs) (s : State) : (s.withRegs q).conn = s.conn := rfl
@[simp] theorem State.withRegs_lock (q : Regs) (s : State) : (s.withRegs q).lock = s.lock := rfl
@[simp] theorem State.withRegs_phase (q : Regs) (s : State) : (s.withRegs q).phase = s.phase := rfl
@[simp] theorem State.withRegs_regs (q : Regs) (s : State) : (s.withRegs q).regs = q := rfl
@[simp] theorem State.withRegs_rxs (q : Regs) (s : State) : (s.withRegs q).rxs = s.rxs := rfl
@[simp] theorem State.withRegs_txAns (q : Regs) (s : State) : (s.withRegs q).txAns = s.txAns := rfl
@[simp] theorem State.withRegs_rxAns (q : Regs) (s : State) : (s.withRegs q).rxAns = s.rxAns := rfl
@[simp] theorem State.withRegs_env (q : Regs) (s : State) : (s.withRegs q).env = s.env := rfl

/-! ## The live registers of each phase -/

/-- `q` agrees with `r` in the registers that are live in phase `p` (R12, R103 to R111). -/
structure Regs.LiveEq (p : Phase) (r q : Regs) : Prop where
  /-- The latches, from the grant on (R101). -/
  latches : p ≠ .idle → q.latches = r.latches
  /-- `TXF`, from `ENCODE` on (R104). -/
  txf : p.framed = true → q.txf = r.txf
  /-- `CNT`, in the byte loops (R106, R107). -/
  cnt : p.transfer = true → q.cnt = r.cnt
  /-- The bytes of `RXF` read so far (R107). -/
  rxf_part : p = .read → ∀ i < r.cnt.toNat, q.rxf.get i = r.rxf.get i
  /-- `RXF`, once it is read (R108, R109). -/
  rxf_whole : p = .decode ∨ p.decoded = true → q.rxf = r.rxf
  /-- The decode results (R108). -/
  results : p.decoded = true → q.ckok = r.ckok ∧ q.st = r.st ∧ q.rv = r.rv

theorem Regs.LiveEq.refl (p : Phase) (r : Regs) : r.LiveEq p r :=
  ⟨fun _ => rfl, fun _ => rfl, fun _ => rfl, fun _ _ _ => rfl, fun _ => rfl, fun _ => ⟨rfl, rfl, rfl⟩⟩

/-- Two states that differ in dead registers alone. -/
structure Twin (s u : State) : Prop where
  same : SameButRegs s u
  live : s.regs.LiveEq s.phase u.regs
  /-- An idle block has no owner: `OWNER` is not live (R11). -/
  free : s.phase = .idle → s.lock = false

theorem Twin.refl {s : State} (free : s.phase = .idle → s.lock = false) : Twin s s := ⟨rfl, .refl _ _, free⟩

/-- No register of an idle block is live (R12). -/
theorem Twin.of_idle {s : State} (q : Regs) (hp : s.phase = .idle) (hl : s.lock = false) : Twin s (s.withRegs q) := by
  refine ⟨rfl, ?_, fun _ => hl⟩
  constructor <;> rw [hp] <;> nofun

/-- Two answers of a step alike: next states with `P`, or the same stop. -/
inductive Alike (P : State → State → Prop) : Res → Res → Prop
  | next {t u : State} (h : P t u) : Alike P (.next t) (.next u)
  | fault (f : Fault) : Alike P (.fault f) (.fault f)
  | refused (r : Refusal) : Alike P (.refused r) (.refused r)

/-! ## The actions of the block -/

/-- `Finish` reads no register but `OWNER`, and forgets them all (R112). -/
theorem finish_withRegs (o : OpOutcome) (s : State) {q : Regs} (h : q.owner = s.regs.owner) :
    (s.withRegs q).finish o = s.finish o := by
  simp only [State.finish, State.deliver, State.setLock, State.forget, State.withRegs, h]

theorem Twin.finish (o : OpOutcome) (s : State) {q : Regs} (h : q.owner = s.regs.owner) :
    Twin (s.finish o) ((s.withRegs q).finish o) := by
  rw [finish_withRegs o s h]
  exact .refl fun _ => rfl

/-- After the grant the latches alone are live, and the grant writes them all (R101). -/
theorem grant_twin (op : OpCode) (f : BitVec 58 → HostOperands) {s : State} (q : Regs) (hp : s.phase = .idle)
    (hl : s.lock = false) : Twin (s.grant op f) ((s.withRegs q).grant op f) := by
  rcases grant_cases op f s with ⟨hno, hs⟩ | ⟨caller, w, -, hw, hs⟩ <;>
    rcases grant_cases op f (s.withRegs q) with ⟨hno', hu⟩ | ⟨caller', w', -, hw', hu⟩
  · rw [hs, hu]
    exact .of_idle q hp hl
  · have hnone : s.granted = none := hno.resolve_left (by simp [hl])
    cases hnone.symm.trans hw'
  · have hnone : s.granted = none := hno'.resolve_left (by simp [hl])
    cases hnone.symm.trans hw
  · cases hw.symm.trans hw'
    rw [hs, hu]
    cases op <;> exact ⟨rfl, ⟨fun _ => rfl, nofun, nofun, nofun, nofun, nofun⟩, nofun⟩

/-- In `IDLE` a request is one grant or one refusal, the same in every state (R59, R101). -/
theorem exec_decodeRequest_uniform (w : BitVec 58) :
    (∃ op f, ∀ s : State, s.phase = .idle → Machine.exec (decodeRequest w) s = .next (s.grant op f)) ∨
    ∀ s : State, Machine.exec (decodeRequest w) s = .refused .reservedRequest := by
  unfold decodeRequest
  split
  · exact .inl ⟨.exec, fun _ => requestOperands w, fun s h => by
      simp only [Machine.exec, execExec, exchange, h, requestOperands]⟩
  · exact .inl ⟨.attach, requestOperands, fun s h => by simp only [Machine.exec, execAttach, handleRequest, h]⟩
  · exact .inl ⟨.detach, requestOperands, fun s h => by simp only [Machine.exec, execDetach, handleRequest, h]⟩
  · exact .inr fun _ => rfl

/-- With nothing granted an idle block drops a choice, if there is one (log 8). -/
theorem blockStep_of_not_granted {s : State} (hp : s.phase = .idle) (hl : s.lock = false) (hg : s.granted = none) :
    blockStep s = .next { s with arb := s.arb.tail } := by
  cases harb : s.arb with
  | nil =>
    simp only [blockStep, State.selected, hp, harb, List.isEmpty_nil, Bool.or_true, if_true]
    rw [List.tail_nil, ← harb, ← hp]
  | cons c rest => simp [blockStep, State.selected, hp, hl, hg, harb]

/-- The action of an idle block reads no register (R12, R101). -/
theorem blockStep_idle_alike {s : State} (q : Regs) (hp : s.phase = .idle) (hl : s.lock = false) :
    Alike Twin (blockStep s) (blockStep (s.withRegs q)) := by
  cases hg : s.granted with
  | none =>
    rw [blockStep_of_not_granted hp hl hg, blockStep_of_not_granted (s := s.withRegs q) hp hl hg]
    exact .next (Twin.of_idle (s := { s with arb := s.arb.tail }) q hp hl)
  | some g =>
    rw [blockStep_of_granted hp hl hg, blockStep_of_granted (s := s.withRegs q) hp hl hg]
    rcases exec_decodeRequest_uniform g.2 with ⟨op, f, he⟩ | he
    · rw [he s hp, he (s.withRegs q) hp]
      exact .next (grant_twin op f q hp hl)
    · rw [he, he]
      exact .refused _

/-- In `SYS` the block looks at `OP`, and its answer at `OWNER` (R120, R121). -/
theorem blockStep_sys_alike {s : State} {q : Regs} (hp : s.phase = .sys) (hq : q.latches = s.regs.latches) :
    Alike Twin (blockStep s) (blockStep (s.withRegs q)) := by
  obtain ⟨howner, hop, -⟩ := (Regs.latches_eq_iff ..).mp hq
  cases ho : s.regs.op with
  | exec =>
    simp only [blockStep, State.selected, State.withRegs_phase, State.withRegs_regs, hp, hop, ho]
    exact .fault _
  | attach =>
    simp only [blockStep, State.selected, State.withRegs_phase, State.withRegs_regs, hp, hop, ho, Machine.exec,
      execAttach, handleRequest, if_true]
    exact .next (Twin.finish (.ok 0) (s.setConn true) howner)
  | detach =>
    simp only [blockStep, State.selected, State.withRegs_phase, State.withRegs_regs, hp, hop, ho, Machine.exec,
      execDetach, handleRequest, if_true]
    exact .next (Twin.finish (.ok 0) (s.setConn false) howner)

/-- A store looks at `CNT` of the registers, and its failure at `OWNER` (R106). -/
theorem writeByte_alike (f : Frame) {s : State} {q : Regs} (hp : s.phase = .write) (h : s.regs.LiveEq .write q) :
    Alike Twin (writeByte f s) (writeByte f (s.withRegs q)) := by
  have hlatches := h.latches nofun
  have htxf := h.txf rfl
  have hcnt := h.cnt rfl
  obtain ⟨howner, -⟩ := (Regs.latches_eq_iff ..).mp hlatches
  by_cases h9 : 9 ≤ s.regs.cnt.toNat
  · simp only [writeByte, State.withRegs_regs, hcnt, h9, if_true]
    exact .fault _
  rcases ha : s.txAns with _ | ⟨_ | ⟨cause, took⟩, rest⟩ <;>
    simp only [writeByte, State.memWrite, State.withRegs_regs, State.withRegs_txAns, hcnt, h9, ha, if_false]
  · exact .next ⟨rfl, hp ▸ h, by simp [hp]⟩
  · by_cases h8 : s.regs.cnt.toNat = 8
    · simp only [h8, if_true]
      exact .next ⟨rfl, ⟨fun _ => hlatches, fun _ => htxf, fun _ => rfl, nofun, nofun, nofun⟩, nofun⟩
    · simp only [h8, if_false]
      exact .next ⟨rfl, ⟨fun _ => hlatches, fun _ => htxf, fun _ => rfl, nofun, nofun, nofun⟩, nofun⟩
  · exact .next (.finish _ _ howner)

/-- A load looks at `CNT` of the registers, and its failure at `OWNER` (R107). -/
theorem readByte_alike {s : State} {q : Regs} (hp : s.phase = .read) (h : s.regs.LiveEq .read q) :
    Alike Twin (readByte s) (readByte (s.withRegs q)) := by
  have hlatches := h.latches nofun
  have htxf := h.txf rfl
  have hcnt := h.cnt rfl
  have hpart := h.rxf_part rfl
  obtain ⟨howner, -⟩ := (Regs.latches_eq_iff ..).mp hlatches
  have hwait : Twin s (s.withRegs q) := ⟨rfl, hp ▸ h, by simp [hp]⟩
  by_cases h9 : 9 ≤ s.regs.cnt.toNat
  · simp only [readByte, State.withRegs_regs, hcnt, h9, if_true]
    exact .fault _
  rcases ha : s.rxAns with _ | ⟨_ | ⟨cause⟩, rest⟩ <;>
    simp only [readByte, State.memRead, State.withRegs_regs, State.withRegs_rxAns, State.withRegs_rxs, hcnt, h9, ha,
      if_false]
  · exact .next hwait
  · rcases hb : s.rxs with _ | ⟨b, bs⟩
    · exact .next hwait
    · by_cases h8 : s.regs.cnt.toNat = 8
      · have hwhole : q.rxf.set 8 b = s.regs.rxf.set 8 b :=
          Frame.eq_of_get fun i hi => Frame.get_set_agree (Nat.le_refl 8) (h8 ▸ hpart) b i (by omega)
        simp only [hcnt, h8, if_true]
        exact .next ⟨rfl, ⟨fun _ => hlatches, fun _ => htxf, nofun, nofun, fun _ => hwhole, nofun⟩, nofun⟩
      · have hlt : s.regs.cnt.toNat < 8 := by omega
        have hnext := Frame.get_set_agree hlt.le hpart b
        rw [← toNat_add_one hlt] at hnext
        simp only [hcnt, h8, if_false]
        exact .next ⟨rfl, ⟨fun _ => hlatches, fun _ => htxf, fun _ => rfl, fun _ => hnext, nofun, nofun⟩, nofun⟩
  · exact .next (.finish _ _ howner)

/-- An action of the block reads live registers alone, and writes each register that comes to live by it (R12). -/
theorem blockStep_alike {s : State} {q : Regs} (h : s.regs.LiveEq s.phase q)
    (hfree : s.phase = .idle → s.lock = false) :
    Alike Twin (blockStep s) (blockStep (s.withRegs q)) := by
  by_cases hidle : s.phase = .idle
  · exact blockStep_idle_alike q hidle (hfree hidle)
  have hq := h.latches hidle
  obtain ⟨howner, -, hcmd, htype, hbank, hvalue⟩ := (Regs.latches_eq_iff ..).mp hq
  cases hp : s.phase with
  | idle => exact absurd hp hidle
  | sys => exact blockStep_sys_alike hp hq
  | chkconn =>
    rw [blockStep_of_chkconn hp, blockStep_of_chkconn (s := s.withRegs q) hp, checkConn, checkConn,
      State.withRegs_conn]
    cases s.conn with
    | true => exact .next ⟨rfl, ⟨fun _ => hq, nofun, nofun, nofun, nofun, nofun⟩, nofun⟩
    | false => exact .next (.finish _ _ howner)
  | encode =>
    rw [blockStep_of_encode hp, blockStep_of_encode (s := s.withRegs q) hp, State.withRegs_regs, hcmd, htype, hbank,
      hvalue, encodePhase, encodePhase, Regs.encode_eq, Regs.encode_eq]
    exact .next ⟨rfl, ⟨fun _ => hq, fun _ => rfl, nofun, nofun, nofun, nofun⟩, nofun⟩
  | tsend =>
    have htxf := h.txf (by rw [hp]; rfl)
    rw [blockStep_of_tsend hp, blockStep_of_tsend (s := s.withRegs q) hp, State.withRegs_regs, hcmd, htype, hbank,
      hvalue, traceSend, traceSend, State.withRegs_regs, htxf]
    exact .next ⟨rfl, ⟨fun _ => hq, fun _ => htxf, fun _ => rfl, nofun, nofun, nofun⟩, nofun⟩
  | write =>
    have htxf := h.txf (by rw [hp]; rfl)
    rw [blockStep_of_write_txf hp, blockStep_of_write_txf (s := s.withRegs q) hp, State.withRegs_regs, htxf]
    exact writeByte_alike _ hp (hp ▸ h)
  | read =>
    rw [blockStep_of_read hp, blockStep_of_read (s := s.withRegs q) hp]
    exact readByte_alike hp (hp ▸ h)
  | decode =>
    have htxf := h.txf (by rw [hp]; rfl)
    have hrxf := h.rxf_whole (.inl hp)
    rw [blockStep_of_decode hp, blockStep_of_decode (s := s.withRegs q) hp, State.withRegs_regs, hrxf, decodePhase,
      decodePhase, Regs.decode_eq, Regs.decode_eq]
    exact .next ⟨rfl, ⟨fun _ => hq, fun _ => htxf, nofun, nofun, fun _ => hrxf, fun _ => ⟨rfl, rfl, rfl⟩⟩, nofun⟩
  | trecv =>
    have htxf := h.txf (by rw [hp]; rfl)
    have hrxf := h.rxf_whole (.inr (by rw [hp]; rfl))
    obtain ⟨hck, hst, hrv⟩ := h.results (by rw [hp]; rfl)
    rw [blockStep_of_trecv hp, blockStep_of_trecv (s := s.withRegs q) hp, traceReceive, traceReceive,
      State.withRegs_regs, hck, hrv, hrxf]
    split <;>
      exact .next ⟨rfl, ⟨fun _ => hq, fun _ => htxf, nofun, nofun, fun _ => hrxf, fun _ => ⟨hck, hst, hrv⟩⟩, nofun⟩
  | classify =>
    obtain ⟨hck, hst, hrv⟩ := h.results (by rw [hp]; rfl)
    rw [blockStep_of_classify_eq hp, blockStep_of_classify_eq (s := s.withRegs q) hp, classifyPhase, classifyPhase,
      State.withRegs_regs, hck, hst, hrv]
    split <;> exact .next (.finish _ _ howner)

/-! ## Steps and runs -/

/-- An event sees `OWNER` alone of the registers, and only while the lock is held (R102, R123). -/
theorem environment_twin {s : State} {q : Regs} (h : s.regs.LiveEq s.phase q)
    (hfree : s.phase = .idle → s.lock = false) (e : EnvEvent) :
    Twin (s.environment e) ((s.withRegs q).environment e) := by
  cases e with
  | present caller word =>
    have hown : (s.lock && q.owner == caller) = (s.lock && s.regs.owner == caller) := by
      cases hl : s.lock with
      | false => rfl
      | true =>
        have hbusy : s.phase ≠ .idle := fun hp => Bool.false_ne_true ((hfree hp).symm.trans hl)
        obtain ⟨howner, -⟩ := (Regs.latches_eq_iff ..).mp (h.latches hbusy)
        rw [howner]
    have hmay : (s.withRegs q).mayPresent caller = s.mayPresent caller := by
      unfold State.mayPresent
      rw [State.withRegs_lock, State.withRegs_regs, hown]
      rfl
    simp only [State.environment, hmay]
    split <;> exact ⟨rfl, h, hfree⟩
  | reset => exact .refl fun _ => rfl
  | _ => exact ⟨rfl, h, hfree⟩

/-- The same agent moves in both states (R123). -/
theorem step_alike {s u : State} (h : Twin s u) : Alike Twin (step s) (step u) := by
  obtain ⟨hsame, hlive, hfree⟩ := h
  rw [← hsame]
  change Alike Twin (step s) (step (s.withRegs u.regs))
  unfold step
  rw [State.withRegs_env]
  split
  next => exact blockStep_alike hlive hfree
  next rest _ => exact blockStep_alike (s := { s with env := rest }) hlive hfree
  next e rest _ _ => exact .next (environment_twin (s := { s with env := rest }) hlive hfree e)

theorem runSteps_alike (n : Nat) : ∀ {s u : State}, Twin s u → Alike Twin (runSteps n s) (runSteps n u) := by
  induction n with
  | zero => exact fun h => .next h
  | succ n ih =>
    intro s u h
    have hstep := step_alike h
    rw [runSteps, runSteps]
    generalize step s = a, step u = b at hstep
    cases hstep with
    | next h => exact ih h
    | fault f => exact .fault f
    | refused r => exact .refused r

/-- Settles O57: two such states are twins, and the runs of twins stay twins or stop alike. -/
theorem deadRegistersAreNeverRead : Obligations.DeadRegistersAreNeverRead := by
  intro s r n hp hl
  have hrun : Alike Twin (runSteps n s) (runSteps n { s with regs := r }) := runSteps_alike n (.of_idle r hp hl)
  generalize runSteps n s = a, runSteps n { s with regs := r } = b at hrun
  cases hrun with
  | next h => exact h.same
  | fault f => rfl
  | refused r => rfl

end Sys2Proof.Machine
end

section
/-! PROOF. The streams (20_memory.md): what an action of the block does to `TXS` and `RXS` (R41, R43), the segments of
`TXS` (R32, R45), and the transfer that is never answered (R37). -/

namespace Sys2Proof.Machine

/-! ## The bytes an action of the block moves (R41, R43) -/

/-- What an action of the block that takes `s` to `t` does to the streams. -/
inductive StreamAction (s t : State) : Prop
  /-- Nothing happens. -/
  | waited (same : t = s)
  /-- No byte moves; if `WRITE` comes next, it begins with byte 0 (R105). -/
  | still (txs : t.txs = s.txs) (rxs : t.rxs = s.rxs) (start : t.phase = .write → t.regs.cnt = 0)
  /-- Byte `CNT` of `TXF` enters `TXS`; if `WRITE` goes on, `CNT` counts it (R106). -/
  | stored (writing : s.phase = .write) (range : s.regs.cnt.toNat ≤ 8)
      (txs : t.txs = s.txs ++ [s.regs.txf.get s.regs.cnt.toNat]) (rxs : t.rxs = s.rxs)
      (next : t.phase = .write → t.frame = s.frame ∧ t.regs.cnt.toNat = s.regs.cnt.toNat + 1)
  /-- The first byte of `RXS` leaves it (R107). -/
  | loaded (reading : s.phase = .read) (txs : t.txs = s.txs) (rxs : ∃ b, s.rxs = b :: t.rxs) (left : t.phase ≠ .write)

theorem StreamAction.finish {s u : State} (o : OpOutcome) (htxs : u.txs = s.txs) (hrxs : u.rxs = s.rxs) :
    StreamAction s (u.finish o) :=
  .still htxs hrxs nofun

theorem grant_streams (op : OpCode) (f : BitVec 58 → HostOperands) (s : State) : StreamAction s (s.grant op f) := by
  rcases grant_cases op f s with ⟨-, hg⟩ | ⟨_, _, -, -, hg⟩
  · exact .waited hg
  · rw [hg]
    cases op <;> exact .still rfl rfl nofun

/-- A store moves byte `CNT`, also where it fails with the byte taken; otherwise nothing (R31, R106). -/
theorem writeByte_streams {s t : State} (hp : s.phase = .write) (h : writeByte s.regs.txf s = .next t) :
    StreamAction s t := by
  rcases writeByte_cases s.regs.txf s with
    ⟨-, hw⟩ | ⟨h8, ⟨-, hw⟩ | ⟨_, -, -, hw⟩ | ⟨_, -, hc, hw⟩ | ⟨_, took, _, -, hw⟩⟩ <;> cases hw.symm.trans h
  · exact .waited rfl
  · exact .stored hp h8 rfl rfl nofun
  · exact .stored hp h8 rfl rfl fun _ => ⟨rfl, toNat_add_one hc⟩
  · cases took with
    | true => exact .stored hp h8 rfl rfl nofun
    | false => exact .finish _ rfl rfl

/-- A load moves the first byte of `RXS` or, unanswered or failed, nothing (R33, R107). -/
theorem readByte_streams {s t : State} (hp : s.phase = .read) (h : readByte s = .next t) : StreamAction s t := by
  rcases readByte_cases s with
    ⟨-, hr⟩ | ⟨-, ⟨-, hr⟩ | ⟨_, b, _, -, hb, -, hr⟩ | ⟨_, b, _, -, hb, -, hr⟩ | ⟨_, _, -, hr⟩⟩ <;> cases hr.symm.trans h
  · exact .waited rfl
  · exact .loaded hp rfl ⟨b, hb⟩ nofun
  · exact .loaded hp rfl ⟨b, hb⟩ nofun
  · exact .finish _ rfl rfl

/-- An idle block moves no byte, whether the lock is free or, in a state no run reaches, held (R100, R101). -/
theorem blockStep_idle_streams {s t : State} (hp : s.phase = .idle) (h : blockStep s = .next t) : StreamAction s t := by
  cases hl : s.lock with
  | true =>
    simp only [blockStep, State.selected, hp, hl, Bool.true_or, if_true] at h
    cases h
    exact .waited rfl
  | false =>
    rcases blockStep_of_idle hp hl h with ⟨arb, rfl⟩ | ⟨op, f, rfl⟩
    · exact .still rfl rfl fun hw => by cases hp.symm.trans hw
    · exact grant_streams op f s

/-- In `SYS` the block stops unless the operation is `ATTACH` or `DETACH` (R101; log 12). -/
theorem op_ne_exec_of_sys {s t : State} (hp : s.phase = .sys) (h : blockStep s = .next t) : s.regs.op ≠ .exec := by
  intro hop
  simp only [blockStep, State.selected, hp, hop] at h
  cases h

/-- The block moves at most one byte an action, in any state: out in `WRITE`, in in `READ` (R41, R43). -/
theorem blockStep_streams {s t : State} (h : blockStep s = .next t) : StreamAction s t := by
  cases hp : s.phase with
  | idle => exact blockStep_idle_streams hp h
  | sys =>
    obtain ⟨conn, hb⟩ := blockStep_of_sys hp (op_ne_exec_of_sys hp h)
    cases hb.symm.trans h
    exact .finish _ rfl rfl
  | chkconn =>
    rw [blockStep_of_chkconn hp, checkConn] at h
    split at h <;> cases h
    · exact .still rfl rfl nofun
    · exact .finish _ rfl rfl
  | encode =>
    cases (blockStep_of_encode hp).symm.trans h
    exact .still rfl rfl nofun
  | tsend =>
    cases (blockStep_of_tsend hp).symm.trans h
    exact .still rfl rfl fun _ => rfl
  | write => exact writeByte_streams hp ((blockStep_of_write_txf hp).symm.trans h)
  | read => exact readByte_streams hp ((blockStep_of_read hp).symm.trans h)
  | decode =>
    cases (blockStep_of_decode hp).symm.trans h
    exact .still rfl rfl nofun
  | trecv =>
    rw [blockStep_of_trecv hp, traceReceive] at h
    split at h <;> cases h <;> exact .still rfl rfl nofun
  | classify =>
    obtain ⟨o, hb⟩ := blockStep_of_classify hp
    cases hb.symm.trans h
    exact .finish _ rfl rfl

/-- Settles O42: the step is an action of the block. -/
theorem streamsMoveOneByte : Obligations.StreamsMoveOneByte := by
  intro s t henv h
  rw [step_of_env_nil henv] at h
  cases blockStep_streams h with
  | waited same => exact ⟨.inl (congrArg _ same), .inl (congrArg _ same)⟩
  | still txs rxs => exact ⟨.inl txs, .inl rxs⟩
  | stored writing _ txs rxs => exact ⟨.inr ⟨writing, txs⟩, .inl rxs⟩
  | loaded reading txs rxs => exact ⟨.inl txs, .inr ⟨reading, rxs⟩⟩

/-! ## The segments of `TXS` (R32, R45) -/

/-- `txs` is a concatenation of segments, with none under way. -/
def Segmented (addr : Byte) (txs : List Byte) : Prop :=
  ∃ segments : List (List Byte), (∀ seg ∈ segments, IsSegment addr seg) ∧ txs = segments.flatten

/-- One more segment at the end: a leading part of the frame of an exchange (R32, R45). -/
theorem Segmented.append_take_frame {s : State} {before : List Byte} (h : Segmented s.cfg.addr before) (n : Nat) :
    Segmented s.cfg.addr (before ++ s.frame.bytes.take n) := by
  obtain ⟨segments, hseg, rfl⟩ := h
  refine ⟨segments ++ [s.frame.bytes.take n], fun seg hmem => ?_, by simp⟩
  rcases List.mem_append.mp hmem with hold | hnew
  · exact hseg seg hold
  · rw [List.mem_singleton.mp hnew]
    exact ⟨s.regs.cmd, s.regs.type, s.regs.bank, s.regs.value, List.take_prefix _ _⟩

/-- In `WRITE` the accepted bytes of the frame in flight follow the segments (R45). -/
theorem txsSegmented_write_iff {s : State} (hp : s.phase = .write) : TxsSegmented s ↔
    ∃ before, Segmented s.cfg.addr before ∧ s.txs = before ++ s.frame.bytes.take s.regs.cnt.toNat := by
  simp only [TxsSegmented, Segmented, hp, if_true]
  constructor
  · rintro ⟨segments, hseg, htxs⟩
    exact ⟨segments.flatten, ⟨segments, hseg, rfl⟩, htxs⟩
  · rintro ⟨_, ⟨segments, hseg, rfl⟩, htxs⟩
    exact ⟨segments, hseg, htxs⟩

/-- Outside `WRITE` there are the segments alone (R45). -/
theorem txsSegmented_iff_of_ne_write {s : State} (hp : s.phase ≠ .write) :
    TxsSegmented s ↔ Segmented s.cfg.addr s.txs := by
  simp only [TxsSegmented, Segmented, hp, if_false, List.append_nil]

/-- The part under way is a segment too, if nothing more is to follow it (R32). -/
theorem TxsSegmented.segmented {s : State} (h : TxsSegmented s) : Segmented s.cfg.addr s.txs := by
  by_cases hp : s.phase = .write
  · obtain ⟨before, hbefore, htxs⟩ := (txsSegmented_write_iff hp).mp h
    rw [htxs]
    exact hbefore.append_take_frame _
  · exact (txsSegmented_iff_of_ne_write hp).mp h

/-- After whole segments no part is under way: `WRITE`, if the state is in it, has accepted nothing yet. -/
theorem Segmented.txsSegmented {s : State} (h : Segmented s.cfg.addr s.txs)
    (hstart : s.phase = .write → s.regs.cnt = 0) : TxsSegmented s := by
  by_cases hp : s.phase = .write
  · refine (txsSegmented_write_iff hp).mpr ⟨s.txs, h, ?_⟩
    rw [hstart hp]
    exact (List.append_nil _).symm
  · exact (txsSegmented_iff_of_ne_write hp).mpr h

/-- `TxsSegmented` speaks of `TXS`, `PHASE`, the transient registers and `ADDR` alone. -/
theorem TxsSegmented.congr {s t : State} (h : TxsSegmented s) (hp : t.phase = s.phase) (hr : t.regs = s.regs)
    (hcfg : t.cfg = s.cfg) (htxs : t.txs = s.txs) : TxsSegmented t := by
  have hframe : t.frame = s.frame := by rw [State.frame, hcfg, hr, State.frame]
  unfold TxsSegmented
  rw [hp, hr, hcfg, htxs, hframe]
  exact h

/-- A byte accepted extends the part under way, which closes as a segment when `WRITE` ends (R31, R106). -/
theorem TxsSegmented.stored {s t : State} (h : TxsSegmented s) (hframe : s.regs.txf = s.frame)
    (hcfg : t.cfg = s.cfg) (hp : s.phase = .write) (hrange : s.regs.cnt.toNat ≤ 8)
    (htxs : t.txs = s.txs ++ [s.regs.txf.get s.regs.cnt.toNat])
    (hnext : t.phase = .write → t.frame = s.frame ∧ t.regs.cnt.toNat = s.regs.cnt.toNat + 1) : TxsSegmented t := by
  obtain ⟨before, hbefore, hsent⟩ := (txsSegmented_write_iff hp).mp h
  have hpart : t.txs = before ++ s.frame.bytes.take (s.regs.cnt.toNat + 1) := by
    rw [htxs, hsent, hframe, List.append_assoc, Frame.take_bytes_succ _ hrange]
  by_cases ht : t.phase = .write
  · obtain ⟨htframe, hcnt⟩ := hnext ht
    exact (txsSegmented_write_iff ht).mpr ⟨before, hcfg ▸ hbefore, by rw [hpart, htframe, hcnt]⟩
  · rw [txsSegmented_iff_of_ne_write ht, hcfg, hpart]
    exact hbefore.append_take_frame _

theorem blockStep_txsSegmented {s t : State} (hinv : s.Inv) (h : TxsSegmented s) (hb : blockStep s = .next t) :
    TxsSegmented t := by
  have hcfg : t.cfg = s.cfg := (blockStep_cfg_conn hb).1
  have hclosed : t.txs = s.txs → Segmented t.cfg.addr t.txs := fun htxs => by
    rw [hcfg, htxs]
    exact h.segmented
  cases blockStep_streams hb with
  | waited same => exact same ▸ h
  | still txs _ start => exact (hclosed txs).txsSegmented start
  | stored writing range txs _ next =>
    exact h.stored (hinv.frame_built (by rw [writing]; rfl)) hcfg writing range txs next
  | loaded _ txs _ left => exact (hclosed txs).txsSegmented fun hp => absurd hp left

/-- Settles O50: an action of the block extends or closes the part under way, a reset closes it (R171), and another
agent moves no byte out. -/
theorem stepKeepsTxsSegmented : Obligations.StepKeepsTxsSegmented := by
  intro s t hinv h hstep
  have hpop : TxsSegmented s.popEvent := h.congr rfl rfl rfl rfl
  rcases step_agent s with hs | ⟨-, hs⟩ | ⟨-, e, he, hs⟩ <;> have hnext := hs.symm.trans hstep
  · exact blockStep_txsSegmented hinv.popEvent hpop hnext
  · cases hnext
    exact Segmented.txsSegmented (s := s.popEvent.resetEvent) hpop.segmented nofun
  · cases hnext
    obtain ⟨-, hp, hr, -, -⟩ := environment_frame he s.popEvent
    obtain ⟨hcfg, -, htxs⟩ := environment_cfg_conn_txs he s.popEvent
    exact hpop.congr hp hr hcfg htxs

/-! ## The transfer that is never answered (R37, R187) -/

/-- Without an answer a store waits (R37; log 7). -/
theorem writeByte_of_unanswered (f : Frame) {s : State} (hc : s.regs.cnt.toNat ≤ 8) (ha : s.txAns = []) :
    writeByte f s = .next s := by
  have hm : s.memWrite (f.get s.regs.cnt.toNat) = .waiting := by simp only [State.memWrite, ha]
  simp only [writeByte, if_neg (Nat.not_le.mpr (Nat.lt_succ_of_le hc)), hm]

/-- Without an answer, or with a byte promised that has not come, a load waits (R37; log 7). -/
theorem readByte_of_unanswered {s : State} (hc : s.regs.cnt.toNat ≤ 8)
    (ha : s.rxAns = [] ∨ ∃ rest, s.rxAns = .deliver :: rest ∧ s.rxs = []) : readByte s = .next s := by
  have hm : s.memRead = .waiting := by
    rcases ha with ha | ⟨rest, ha, hb⟩
    · simp only [State.memRead, ha]
    · simp only [State.memRead, ha, hb]
  simp only [readByte, if_neg (Nat.not_le.mpr (Nat.lt_succ_of_le hc)), hm]

/-- A state that steps to itself is all its run comes to. -/
theorem runSteps_self {s : State} (h : step s = .next s) (n : Nat) : runSteps n s = .next s := by
  induction n with
  | zero => rfl
  | succ n ih => rw [runSteps_step h, ih]

/-- A state that steps to itself never leaves its phase. -/
theorem not_eventually_phase_ne {s : State} (h : step s = .next s) :
    ¬ Eventually (fun u => u.phase ≠ s.phase) s := by
  rintro ⟨u, hu, hne⟩
  exact hne (congrArg _ (reaches_self h hu))

/-- Settles O54: an unanswered load or store steps to itself, so the transfer never ends. -/
theorem unansweredTransferHangs : Obligations.UnansweredTransferHangs := by
  intro s henv hc
  constructor
  · intro hp ha
    have hself : step s = .next s := by
      rw [step_of_env_nil henv, blockStep_of_read hp, readByte_of_unanswered hc ha]
    exact ⟨runSteps_self hself, fun hr => not_eventually_phase_ne hself (hp ▸ hr s (.refl s) hp)⟩
  · intro hp ha
    have hself : step s = .next s := by
      rw [step_of_env_nil henv, blockStep_of_write_txf hp, writeByte_of_unanswered _ hc ha]
    exact ⟨runSteps_self hself, fun hw => not_eventually_phase_ne hself (hp ▸ hw s (.refl s) hp)⟩

end Sys2Proof.Machine
end

section
/-! PROOF. The encodings: the request word as numbers (R56), frames built from their fields (R50, R51), and what the
decoder reads from what the encoder writes (R53, R62, R131). -/

namespace Sys2Proof

/-! ## The request word (R56) -/

/-- A field of a word is the word divided by the weight of the field's lowest bit, in as many bits as the field has. -/
theorem extractLsb'_eq_ofNat_div {n : Nat} (w : BitVec n) (low width : Nat) :
    w.extractLsb' low width = BitVec.ofNat width (w.toNat / 2 ^ low) := by
  rw [BitVec.extractLsb', Nat.shiftRight_eq_div_pow]

theorem requestOp_toNat (w : BitVec 58) : (requestOp w).toNat = w.toNat / 2 ^ 56 := by
  rw [requestOp, extractLsb'_eq_ofNat_div, BitVec.toNat_ofNat]
  omega

theorem decodeRequest_eq_exec {w : BitVec 58} (h : w.toNat / 2 ^ 56 = 0) :
    decodeRequest w = .exec (requestCmd w) (requestType w) (requestBank w) (requestValue w) := by
  simp only [decodeRequest, requestOp_toNat, h]

theorem decodeRequest_eq_attach {w : BitVec 58} (h : w.toNat / 2 ^ 56 = 1) : decodeRequest w = .attach := by
  simp only [decodeRequest, requestOp_toNat, h]

theorem decodeRequest_eq_detach {w : BitVec 58} (h : w.toNat / 2 ^ 56 = 2) : decodeRequest w = .detach := by
  simp only [decodeRequest, requestOp_toNat, h]

theorem decodeRequest_eq_hreqReserved {w : BitVec 58} (h : w.toNat / 2 ^ 56 = 3) : decodeRequest w = .hreqReserved := by
  simp only [decodeRequest, requestOp_toNat, h]

/-- Settles O2: `op` selects the row, and each operand is a field of the word. -/
theorem requestWordFields : Obligations.RequestWordFields := by
  intro w
  refine ⟨fun h => ?_, decodeRequest_eq_attach, decodeRequest_eq_detach, decodeRequest_eq_hreqReserved⟩
  have hvalue : requestValue w = BitVec.ofNat 32 w.toNat := by
    rw [requestValue, extractLsb'_eq_ofNat_div, Nat.pow_zero, Nat.div_one]
  rw [decodeRequest_eq_exec h, hvalue, requestCmd, requestType, requestBank]
  simp only [extractLsb'_eq_ofNat_div]

/-- `op` is the top field: nothing stands above it (R56). -/
theorem requestWord_op (op : BitVec 2) (cmd type bank : Byte) (value : Value) :
    (requestWord op cmd type bank value).toNat / 2 ^ 56 = op.toNat := by
  obtain ⟨hlt, hop, -⟩ := Laws.requestWord_fields op cmd type bank value
  omega

theorem decodeRequest_requestWord (cmd type bank : Byte) (value : Value) :
    decodeRequest (requestWord 0 cmd type bank value) = .exec cmd type bank value := by
  obtain ⟨-, -, hcmd, htype, hbank⟩ := Laws.requestWord_fields 0 cmd type bank value
  have hvalue : (requestWord 0 cmd type bank value).toNat % 2 ^ 32 = value.toNat := by
    rw [Laws.requestWord_toNat]
    omega
  rw [decodeRequest_eq_exec (requestWord_op ..), Instr.exec.injEq]
  simp only [requestCmd, requestType, requestBank, requestValue, extractLsb'_eq_ofNat_div, ← BitVec.toNat_inj,
    BitVec.toNat_ofNat, hcmd, htype, hbank, hvalue, Nat.pow_zero, Nat.div_one, and_self]

/-- A request word fits its port, so the decoder reads it (R56). -/
theorem decodeAt_request (addr : Byte) {w : BitVec 58} {i : Instr} (h : decodeRequest w = i) :
    decodeAt addr (.request w.toNat) = .ok i := by
  rw [decodeAt, if_pos w.isLt, BitVec.ofNat_toNat, BitVec.setWidth_eq, h]

/-! ## Frames from their fields (R50, R51) -/

/-- Unpacking undoes packing (R83). -/
theorem frameWith_value (b0 b1 b2 b3 : Byte) (v : Value) (k : Byte) : (frameWith b0 b1 b2 b3 v k).value = v := by
  simp only [Frame.value, frameWith, packValue, unpackValue]
  ext i hi
  grind

theorem sealedFrame_valid (b0 b1 b2 b3 : Byte) (v : Value) : (sealedFrame b0 b1 b2 b3 v).valid = true :=
  beq_self_eq_true _

theorem sealedFrame_value (b0 b1 b2 b3 : Byte) (v : Value) : (sealedFrame b0 b1 b2 b3 v).value = v :=
  frameWith_value ..

theorem Frame.ofBytes_bytes (f : Frame) : Frame.ofBytes f.bytes = some f := rfl

/-! ## What the decoder reads from a frame the encoder writes -/

theorem decodeAt_encodeFrame (addr cmd type bank : Byte) (value : Value) :
    decodeAt addr (.tx (encodeFrame addr cmd type bank value).bytes) = .ok (.cmdf cmd type bank value) := by
  have haddr : ¬ (sealedFrame addr cmd type bank value).b0 ≠ addr := not_not.mpr rfl
  simp only [decodeAt, Frame.ofBytes_bytes, decodeCommand, encodeFrame, if_neg haddr, sealedFrame_valid,
    sealedFrame_value, if_true]
  rfl

theorem decodeAt_encodeReply (addr a m status e : Byte) (v : Value) :
    decodeAt addr (encodeReply a m status e v) = .ok (replyRow status a m e v) := by
  simp only [encodeReply, decodeAt, Frame.ofBytes_bytes, decodeReply, sealedFrame_valid, sealedFrame_value, if_true]
  rfl

theorem decodeAt_badReply (addr : Byte) {a m status e : Byte} {v : Value} {k : Byte}
    (h : (frameWith a m status e v k).valid = false) :
    decodeAt addr (.rx (frameWith a m status e v k).bytes) = .ok (.rplBadck a m status e v k) := by
  simp only [decodeAt, Frame.ofBytes_bytes, decodeReply, h, frameWith_value, Bool.false_eq_true, if_false]
  rfl

/-- A status that is none of the eight named ones selects the row of the unknown status (R98). -/
theorem replyRow_of_not_named {status : Byte} (h : namedStatus status = false) (a m e : Byte) (v : Value) :
    replyRow status a m e v = .rplUnknown a m status e v := by
  simp only [namedStatus, Bool.or_eq_false_iff, beq_eq_false_iff_ne, ne_eq, ← BitVec.toNat_inj] at h
  obtain ⟨⟨⟨⟨⟨⟨⟨h100, h101⟩, h1⟩, h2⟩, h3⟩, h4⟩, h5⟩, h6⟩ := h
  unfold replyRow
  split
  case h_9 => rfl
  all_goals contradiction

/-- Settles O1: in each of the three formats the decoder finds the fields the encoder wrote, and the row they select. -/
theorem decodeInvertsEncode : Obligations.DecodeInvertsEncode := by
  intro addr i r hwf hr
  cases i with
  | exec => cases hr; exact decodeAt_request addr (decodeRequest_requestWord ..)
  | attach => cases hr; exact decodeAt_request addr (decodeRequest_eq_attach (requestWord_op ..))
  | detach => cases hr; exact decodeAt_request addr (decodeRequest_eq_detach (requestWord_op ..))
  | hreqReserved => cases hr; exact decodeAt_request addr (decodeRequest_eq_hreqReserved (requestWord_op ..))
  | rotateRight => cases hr; exact decodeAt_request addr (decodeRequest_requestWord ..)
  | cmdf => cases hr; exact decodeAt_encodeFrame ..
  | rplOk100 | rplOk101 | rplErr1 | rplErr2 | rplErr3 | rplErr4 | rplErr5 | rplErr6 =>
    cases hr
    exact decodeAt_encodeReply ..
  | rplUnknown =>
    cases hr
    rw [decodeAt_encodeReply, replyRow_of_not_named ((Bool.not_eq_true' _).mp hwf)]
    rfl
  | rplBadck => cases hr; exact decodeAt_badReply addr ((Bool.not_eq_true' _).mp hwf)
  | cksum | valid | ckClr | ckAdd | ckEmit | ckCmp | pack32 | unpack32 | encode | decode | classify => cases hr

/-- Settles O4: each of the words is what the encoder writes for the row the spec says it is. -/
theorem specWordsDecode : Obligations.SpecWordsDecode :=
  ⟨decodeInvertsEncode _ (.exec 1 0 1 500) _ rfl rfl,
   decodeInvertsEncode _ .attach _ rfl rfl,
   decodeInvertsEncode _ .detach _ rfl rfl,
   decodeInvertsEncode _ .hreqReserved _ rfl rfl,
   decodeInvertsEncode _ (.cmdf 1 0 1 500) _ rfl rfl,
   decodeInvertsEncode _ (.rplOk100 2 1 1 0) _ rfl rfl,
   decodeInvertsEncode _ (.rplErr5 2 1 5 1234) _ rfl rfl,
   decodeInvertsEncode _ (.rplBadck 2 1 100 1 0 0x69) _ rfl rfl⟩

end Sys2Proof

namespace Sys2Proof.Machine

/-! ## The outcome nine received bytes select (R53, R62) -/

/-- The checksum test over the integers (R70, R77). -/
theorem valid_iff_spanSum (f : Frame) : f.valid = true ↔ f.b8.toNat = spanSum f.span % 256 := by
  rw [Frame.valid, beq_iff_eq, ← BitVec.toNat_inj, checksum, BitVec.toNat_ofNat, spanSum]

/-- Settles O26: the row is that of the status byte, which classifies it, or the row of the bad checksum. -/
theorem receivedFrameSelectsOutcome : Obligations.ReceivedFrameSelectsOutcome := by
  intro s f
  constructor <;> intro h <;> rw [decodeReply]
  · rw [if_pos ((valid_iff_spanSum f).mpr h)]
    exact ⟨_, exec_replyRow_classify .., finish_ended ..⟩
  · rw [if_neg (mt (valid_iff_spanSum f).mp h)]
    exact ⟨_, rfl, finish_ended ..⟩

/-! ## The response word (R57) -/

theorem response_word_toNat (causeW : Nat) (o : OpOutcome) :
    (o.response causeW).word.toNat = o.kindField.toNat * 2 ^ 41 + o.phaseField.toNat * 2 ^ 40 +
      o.codeField.toNat * 2 ^ 32 + o.valueField.toNat := by
  simp only [OpOutcome.response, BitVec.toNat_append]
  rw [← Nat.shiftLeft_add_eq_or_of_lt o.valueField.isLt, ← Nat.shiftLeft_add_eq_or_of_lt o.codeField.isLt,
    ← Nat.shiftLeft_add_eq_or_of_lt o.phaseField.isLt]
  simp only [Nat.shiftLeft_eq]
  omega

/-- Settles O27: the four fields of each outcome, put at their places. -/
theorem responseWordLayout : Obligations.ResponseWordLayout := by
  intro causeW o
  have hword := response_word_toNat causeW o
  cases o with
  | ok | notConnected | checksumError =>
    exact ⟨by simp [hword, OpOutcome.kindField, OpOutcome.phaseField, OpOutcome.codeField, OpOutcome.valueField], rfl⟩
  | transportError phase =>
    cases phase <;>
      exact ⟨by simp [hword, OpOutcome.kindField, OpOutcome.phaseField, OpOutcome.codeField, OpOutcome.valueField], rfl⟩
  | protocolStatusError kind =>
    refine ⟨rfl, ?_⟩
    cases kind <;>
      simp [hword, OpOutcome.kindField, OpOutcome.phaseField, OpOutcome.codeField, OpOutcome.valueField, StatusKind.code]

/-! ## The reserved request, and the only stop (R59, R114) -/

/-- Settles O29: the word is decoded to the row that is refused. -/
theorem reservedRequestIsRefused : Obligations.ReservedRequestIsRefused := by
  refine ⟨fun _ => rfl, ?_⟩
  intro s caller rest w henv hp hl harb hreq hop
  rw [step_of_env_nil henv, blockStep_of_granted hp hl ((granted_eq_some s caller w).mpr ⟨rest, harb, hreq⟩),
    decodeRequest_eq_hreqReserved hop]
  rfl

/-- In `IDLE` a request that is not reserved is not refused (R59, R101). -/
theorem exec_decodeRequest_next {w : BitVec 58} {s : State} (hp : s.phase = .idle) (hw : w.toNat / 2 ^ 56 ≠ 3) :
    ∃ t, Machine.exec (decodeRequest w) s = .next t := by
  have hop : w.toNat / 2 ^ 56 = 0 ∨ w.toNat / 2 ^ 56 = 1 ∨ w.toNat / 2 ^ 56 = 2 := by omega
  rcases hop with h | h | h
  · rw [decodeRequest_eq_exec h]
    exact ⟨_, by simp only [Machine.exec, execExec, exchange, hp]; rfl⟩
  · rw [decodeRequest_eq_attach h]
    exact ⟨_, by simp only [Machine.exec, execAttach, handleRequest, hp]; rfl⟩
  · rw [decodeRequest_eq_detach h]
    exact ⟨_, by simp only [Machine.exec, execDetach, handleRequest, hp]; rfl⟩

/-- An idle block acts, or refuses the reserved request the arbiter chose (R59, R101). -/
theorem blockStep_next_or_reserved {s : State} (hp : s.phase = .idle) (hl : s.lock = false) :
    (∃ t, blockStep s = .next t) ∨
    (blockStep s = .refused .reservedRequest ∧
      ∃ caller w, s.granted = some (caller, w) ∧ w.toNat / 2 ^ 56 = 3) := by
  cases hg : s.granted with
  | none =>
    left
    simp only [blockStep, State.selected, hp, hl, hg, Bool.false_or]
    split_ifs <;> exact ⟨_, rfl⟩
  | some g =>
    obtain ⟨caller, w⟩ := g
    rw [blockStep_of_granted hp hl hg]
    by_cases hw : w.toNat / 2 ^ 56 = 3
    · exact .inr ⟨by rw [decodeRequest_eq_hreqReserved hw]; rfl, caller, w, rfl, hw⟩
    · exact .inl (exec_decodeRequest_next hp hw)

/-- Settles O49: an event of the environment and an action of a locked block never stop; an idle block does so at a
reserved request alone. -/
theorem onlyReservedRequestsStop : Obligations.OnlyReservedRequestsStop := by
  intro s hinv
  have hpop := hinv.popEvent.sequenced
  rcases step_agent s with hstep | ⟨-, hstep⟩ | ⟨-, e, -, hstep⟩
  · rw [hstep]
    cases hl : s.popEvent.lock with
    | true =>
      obtain ⟨t, hb, -⟩ := blockStep_held ⟨hpop, hl, rfl⟩
      exact .inl ⟨t, hb⟩
    | false =>
      have hp := hpop.lock_iff.mp hl
      refine (blockStep_next_or_reserved hp hl).imp_right fun ⟨hb, caller, w, hg, hw⟩ => ?_
      obtain ⟨rest, harb, hreq⟩ := (granted_eq_some ..).mp hg
      exact ⟨hb, hp, caller, rest, w, harb, hreq, hw⟩
  · exact .inl ⟨_, hstep⟩
  · exact .inl ⟨_, hstep⟩

end Sys2Proof.Machine
end

section
/-! PROOF. The checksum and its accumulator (40_checksum.md): the laws of R76, and what the accumulator operations and
the pure functions built from them compute (R70 to R77). -/

namespace Sys2Proof

/-! ## The laws of the checksum (R76) -/

/-- Law 2 in 8 bits. -/
theorem checksum_append (s t : List Byte) : checksum (s ++ t) = checksum s + checksum t := by
  simp [checksum, BitVec.ofNat_add]

/-- Law 3. -/
theorem checksum_perm {s t : List Byte} (h : s.Perm t) : checksum s = checksum t :=
  congrArg (BitVec.ofNat 8) (h.map BitVec.toNat).sum_eq

/-- Settles O13: the sum of a concatenation is the sum of the sums, and a sum does not depend on the order. -/
theorem checksumConcatAndOrder : Obligations.ChecksumConcatAndOrder := by
  refine ⟨fun s t => ?_, fun s t h => checksum_perm h⟩
  rw [checksum_append, BitVec.toNat_add]

/-- One byte of a span is determined by the checksum and the other bytes. -/
theorem checksum_replace_inj {pre post : List Byte} {b c : Byte}
    (h : checksum (pre ++ b :: post) = checksum (pre ++ c :: post)) : b = c := by
  simpa [checksum_append, checksum_cons] using h

theorem Frame.valid_iff (f : Frame) : f.valid = true ↔ f.b8 = checksum f.span := beq_iff_eq

theorem Frame.set_get_self (f : Frame) {n : Nat} (h : n ≤ 8) : f.set n (f.get n) = f := by
  interval_cases n <;> rfl

theorem Frame.set_b8 (f : Frame) (b : Byte) {n : Nat} (h : n < 8) : (f.set n b).b8 = f.b8 := by
  interval_cases n <;> rfl

/-- The span around the byte that was replaced. -/
theorem Frame.set_span (f : Frame) (b : Byte) {n : Nat} (h : n < 8) :
    (f.set n b).span = f.span.take n ++ b :: f.span.drop (n + 1) := by
  interval_cases n <;> rfl

/-- At each place one byte at most makes the frame valid. -/
theorem Frame.eq_of_valid_set {f : Frame} {n : Nat} {b c : Byte} (hn : n ≤ 8)
    (hb : (f.set n b).valid = true) (hc : (f.set n c).valid = true) : b = c := by
  rw [Frame.valid_iff] at hb hc
  rcases hn.lt_or_eq with hlt | rfl
  · rw [f.set_b8 _ hlt, f.set_span _ hlt] at hb hc
    exact checksum_replace_inj (hb.symm.trans hc)
  · exact hb.trans hc.symm

/-- Settles O14: the byte that was there already makes the frame valid. -/
theorem oneChangedByteIsDetected : Obligations.OneChangedByteIsDetected := by
  intro f n b hn hf hb
  rw [← f.set_get_self hn] at hf
  exact Bool.eq_false_iff.mpr fun hv => hb (Frame.eq_of_valid_set hn hv hf)

end Sys2Proof

namespace Sys2Proof.Machine

/-! ## The accumulator over the integers -/

theorem checksum_toNat (span : List Byte) : (checksum span).toNat = spanSum span % 256 :=
  BitVec.toNat_ofNat ..

theorem checksum_eq_spanSum (span : List Byte) : checksum span = BitVec.ofNat 8 (spanSum span % 256) :=
  BitVec.eq_of_toNat_eq (by simp [checksum_toNat])

theorem ckokOf_eq_decide (acc k : Byte) : ckokOf acc k = decide (acc.toNat = k.toNat) := by
  rw [ckokOf, Bool.beq_eq_decide_eq]
  exact decide_eq_decide.mpr BitVec.toNat_inj.symm

/-- The accumulation of a span, as numbers (R70, R75). -/
theorem Regs.ckRun_spanSum (r : Regs) (span : List Byte) :
    r.ckRun span = { r with acc := BitVec.ofNat 8 (spanSum span % 256), cnt := BitVec.ofNat 4 span.length } := by
  rw [Regs.ckRun_eq, checksum_eq_spanSum]

/-! ## One operation (R70 to R74, R77) -/

/-- Settles O6: the meaning of the row, `Regs.ckClr`. -/
theorem ckClrClears : Obligations.CkClrClears := fun _ => rfl

/-- Settles O7: the sums of 8 and of 4 bits, as numbers. -/
theorem ckAddAddsModulo256 : Obligations.CkAddAddsModulo256 := by
  intro s b
  have hacc : s.regs.acc + b = BitVec.ofNat 8 ((s.regs.acc.toNat + b.toNat) % 256) :=
    BitVec.eq_of_toNat_eq (by simp)
  have hcnt : s.regs.cnt + 1 = BitVec.ofNat 4 (s.regs.cnt.toNat + 1) := BitVec.eq_of_toNat_eq (by simp)
  rw [← hacc, ← hcnt]
  rfl

/-- Settles O8: the meaning of the row, `Regs.ckEmit`. -/
theorem ckEmitPlacesChecksum : Obligations.CkEmitPlacesChecksum := fun _ => rfl

/-- Settles O9: bytes are equal exactly when their numbers are. -/
theorem ckCmpTestsChecksum : Obligations.CkCmpTestsChecksum := by
  intro s
  rw [← ckokOf_eq_decide]
  rfl

/-- Settles O11: the accumulation of the span. -/
theorem cksumLeavesSumInAcc : Obligations.CksumLeavesSumInAcc := by
  intro s span
  rw [← Regs.ckRun_spanSum]
  rfl

/-- Settles O12: the accumulation of the span, compared with byte 8. -/
theorem validLeavesTruthInCkok : Obligations.ValidLeavesTruthInCkok := by
  intro s f
  have hk : ckokOf (checksum f.span) f.b8 = decide (f.b8.toNat = spanSum f.span % 256) := by
    rw [ckokOf_eq_decide, checksum_toNat]
    exact decide_eq_decide.mpr eq_comm
  rw [← hk, ← checksum_eq_spanSum]
  simp only [Machine.exec, execValid, Regs.ckRun_eq]
  rfl

/-! ## The operations in sequence (R75) -/

/-- A `CK.ADD` of each byte, and then the operations that follow. -/
theorem execSeq_ckAdd (span : List Byte) (rest : List Instr) : ∀ s : State,
    execSeq (span.map Instr.ckAdd ++ rest) s = execSeq rest { s with regs := span.foldl Regs.ckAdd s.regs } := by
  induction span with
  | nil => exact fun _ => rfl
  | cons b span ih => exact fun s => ih { s with regs := s.regs.ckAdd b }

/-- `CK.CLR` and a `CK.ADD` of each byte are the accumulation that `CKSUM`, `ENCODE` and `DECODE` use. -/
theorem execSeq_ckClr_ckAdd (span : List Byte) (rest : List Instr) (s : State) :
    execSeq (.ckClr :: span.map Instr.ckAdd ++ rest) s = execSeq rest { s with regs := s.regs.ckRun span } :=
  execSeq_ckAdd span rest { s with regs := s.regs.ckClr }

/-- Settles O10: the accumulation, then nothing, `CK.EMIT` or `CK.CMP`. -/
theorem accumulatorComputesChecksum : Obligations.AccumulatorComputesChecksum := by
  refine ⟨fun s span _ => ?_,
    fun s => ⟨{ s with regs := (s.regs.ckRun s.regs.txf.span).ckEmit }, execSeq_ckClr_ckAdd .., ?_, ?_⟩,
    fun s => ⟨{ s with regs := (s.regs.ckRun s.regs.rxf.span).ckCmp s.regs.rxf.b8 }, ?_, ?_⟩⟩
  · rw [← Regs.ckRun_spanSum, ← List.append_nil (_ :: _), execSeq_ckClr_ckAdd]
    rfl
  · rw [Regs.ckRun_eq]
    exact checksum_toNat _
  · rw [Regs.ckRun_eq]
    rfl
  · rw [execSeq_ckClr_ckAdd, Regs.ckRun_eq]
    rfl
  · rw [Regs.ckRun_eq, Regs.ckCmp_ckok, ckokOf_eq_decide, checksum_toNat, decide_eq_true_iff, eq_comm]

end Sys2Proof.Machine
end

section
/-! PROOF. The codec (41_codec.md): the value field as numbers (R80, R81, R83), which frames are command frames and
which are accepted (R84, R87, R88), and the value of a reply through a whole exchange (R86, R116). -/

namespace Sys2Proof

/-! ## The value field (R80, R81, R83) -/

/-- Unpacking undoes packing: the value field of a frame is the value it was built from. -/
theorem unpackValue_packValue (v : Value) :
    unpackValue (packValue v).1 (packValue v).2.1 (packValue v).2.2.1 (packValue v).2.2.2 = v :=
  frameWith_value 0 0 0 0 v 0

/-- The bytes of a value, most significant first, as quotients (R80). -/
theorem packValue_eq_ofNat (v : Value) : packValue v =
    (BitVec.ofNat 8 (v.toNat / 16777216), BitVec.ofNat 8 (v.toNat / 65536), BitVec.ofNat 8 (v.toNat / 256),
      BitVec.ofNat 8 v.toNat) := by
  simp only [packValue, extractLsb'_eq_ofNat_div, Nat.reducePow, Nat.div_one]

/-- The first byte is the most significant (R81). -/
theorem unpackValue_toNat (p0 p1 p2 p3 : Byte) : (unpackValue p0 p1 p2 p3).toNat =
    p0.toNat * 16777216 + p1.toNat * 65536 + p2.toNat * 256 + p3.toNat := by
  unfold unpackValue
  simp only [BitVec.toNat_append]
  rw [← Nat.shiftLeft_add_eq_or_of_lt p3.isLt, ← Nat.shiftLeft_add_eq_or_of_lt p2.isLt,
    ← Nat.shiftLeft_add_eq_or_of_lt p1.isLt]
  simp only [Nat.shiftLeft_eq]
  omega

/-- Settles O15: each direction undoes the other. -/
theorem packUnpackInverse : Obligations.PackUnpackInverse :=
  ⟨unpackValue_packValue, packValue_unpackValue⟩

/-- Settles O16: the row writes `PACK32(v)` into bytes 4 to 7. -/
theorem pack32PlacesBytes : Obligations.Pack32PlacesBytes := by
  intro s v
  simp only [Machine.exec, Machine.execPack32, Machine.Regs.putValue, packValue_eq_ofNat]

/-- Settles O17: the 32 bits are the number of the four bytes, and bit 7 of the first byte is their sign. -/
theorem unpack32JoinsBytes : Obligations.Unpack32JoinsBytes := by
  refine ⟨fun s p0 p1 p2 p3 => ?_, fun p0 p1 p2 p3 => ?_⟩
  · rw [← unpackValue_toNat, BitVec.ofNat_toNat, BitVec.setWidth_eq]
    rfl
  · have h1 := p1.isLt; have h2 := p2.isLt; have h3 := p3.isLt
    rw [BitVec.toInt_eq_toNat_cond, unpackValue_toNat]
    split <;> split <;> omega

/-! ## The frames `ENCODE` gives and `DECODE` accepts (R84, R87, R88) -/

/-- Settles O3: an encoded frame is sealed over its fields, and a valid frame is `ENCODE` of its own fields. -/
theorem commandFrameDeterminesOperands : Obligations.CommandFrameDeterminesOperands := by
  refine ⟨fun addr f => ⟨?_, fun ⟨haddr, hvalid⟩ => ⟨_, _, _, _, (encodeFrame_self haddr hvalid).symm⟩⟩,
    fun addr cmd type bank value => ⟨rfl, rfl, rfl, sealedFrame_value ..⟩⟩
  rintro ⟨cmd, type, bank, value, rfl⟩
  exact ⟨rfl, sealedFrame_valid ..⟩

theorem decodeFrame_of_valid {f : Frame} (h : f.valid = true) : decodeFrame f = some (f.b2, f.value) := if_pos h

theorem decodeFrame_eq_none_iff (f : Frame) : decodeFrame f = none ↔ ¬ f.valid = true := by
  simp [decodeFrame]

/-- Settles O20: the checksum test over the integers decides. -/
theorem decodeAcceptsValidFrames : Obligations.DecodeAcceptsValidFrames := fun f =>
  ⟨fun h => (decodeFrame_eq_none_iff f).mpr (mt (Machine.valid_iff_spanSum f).mp h),
    fun h => decodeFrame_of_valid ((Machine.valid_iff_spanSum f).mpr h)⟩

/-- `DECODE` gives the status and the value a frame was sealed with (R86). -/
theorem decodeFrame_sealedFrame (a m status e : Byte) (v : Value) :
    decodeFrame (sealedFrame a m status e v) = some (status, v) := by
  rw [decodeFrame_of_valid (sealedFrame_valid ..), sealedFrame_value]
  rfl

/-- Settles O21: another byte 8 leaves the span, and so the one checksum that passes, as it was. -/
theorem encodedFrameAlwaysDecodes : Obligations.EncodedFrameAlwaysDecodes := by
  intro addr cmd type bank value k
  have hencoded : decodeFrame (encodeFrame addr cmd type bank value) = some (type, value) := decodeFrame_sealedFrame ..
  refine ⟨by simp [hencoded], ?_⟩
  rw [Ne, decodeFrame_eq_none_iff, not_not, Machine.valid_iff_spanSum]
  rfl

end Sys2Proof

namespace Sys2Proof.Machine

/-! ## The two transfers of an exchange (R106, R107) -/

/-- A write that ends without a failure has sent every byte. -/
theorem offerAll_done {bs : List Byte} : ∀ {ans : List TxAnswer} {sent : List Byte},
    offerAll bs ans = some (sent, none) → sent = bs := by
  induction bs with
  | nil =>
    intro ans sent h
    cases h
    rfl
  | cons b bs ih =>
    intro ans sent h
    match ans with
    | [] => cases h
    | .fail cause took :: rest => cases h
    | .ok :: rest =>
      simp only [offerAll, Option.map_eq_some_iff, Prod.mk.injEq, Prod.exists] at h
      obtain ⟨sent', code, hrest, rfl, rfl⟩ := h
      rw [ih hrest]

/-- A read that fails has taken fewer bytes than it asked for. -/
theorem requestAll_failed {n : Nat} : ∀ {ans : List RxAnswer} {rxs taken : List Byte} {cause : Nat},
    requestAll n ans rxs = some (taken, some cause) → taken.length < n := by
  induction n with
  | zero =>
    intro ans rxs taken cause h
    cases h
  | succ n ih =>
    intro ans rxs taken cause h
    match ans, rxs with
    | [], _ => cases h
    | .fail _ :: _, _ =>
      cases h
      exact Nat.succ_pos n
    | .deliver :: _, [] => cases h
    | .deliver :: rest, b :: bs =>
      simp only [requestAll, Option.map_eq_some_iff, Prod.mk.injEq, Prod.exists] at h
      obtain ⟨taken', code, hrest, rfl, rfl⟩ := h
      exact Nat.succ_lt_succ (ih hrest)

/-- A transport that takes every byte is offered them all, whatever it answers later. -/
theorem offerAll_replicate (bs : List Byte) (later : List TxAnswer) :
    offerAll bs (List.replicate bs.length .ok ++ later) = some (bs, none) := by
  induction bs with
  | nil => rfl
  | cons b bs ih => simp only [List.length_cons, List.replicate_succ, List.cons_append, offerAll, ih, Option.map_some]

/-- A transport that delivers every byte asked for gives the first of `RXS`, whatever it holds behind them. -/
theorem requestAll_replicate (bs behind : List Byte) (later : List RxAnswer) :
    requestAll bs.length (List.replicate bs.length .deliver ++ later) (bs ++ behind) = some (bs, none) := by
  induction bs with
  | nil => rfl
  | cons b bs ih => simp only [List.length_cons, List.replicate_succ, List.cons_append, requestAll, ih, Option.map_some]

/-! ## The exchange as one function (R116) -/

/-- The outcome of an exchange that has received `g`: the checksum test, then the status byte (R110, R111). -/
def replyOutcome (g : Frame) : OpOutcome :=
  (decodeFrame g).elim .checksumError fun r => classifyStatus r.1 r.2

theorem replyOutcome_sealedFrame (a m status e : Byte) (v : Value) :
    replyOutcome (sealedFrame a m status e v) = classifyStatus status v := by
  rw [replyOutcome, decodeFrame_sealedFrame, Option.elim_some]

/-- An exchange whose transfers both succeed ends with the outcome of the reply. -/
theorem exchangeFn_of_reply {addr cmd type bank : Byte} {value : Value} {txAns : List TxAnswer}
    {rxAns : List RxAnswer} {rxs sent taken : List Byte} {g : Frame}
    (hw : offerAll (encodeFrame addr cmd type bank value).bytes txAns = some (sent, none))
    (hr : requestAll 9 rxAns rxs = some (taken, none)) (hg : Frame.ofBytes taken = some g) :
    exchangeFn true addr cmd type bank value txAns rxAns rxs = some ⟨replyOutcome g, sent, taken⟩ := by
  cases hd : decodeFrame g <;> simp [exchangeFn, hw, hr, hg, hd, replyOutcome]

/-- How an exchange can end (R103, R106, R107, R110, R111): not connected, with a failed write, with a failed read, or
with the outcome of the nine bytes received. -/
theorem exchangeFn_cases {conn : Bool} {addr cmd type bank : Byte} {value : Value} {txAns : List TxAnswer}
    {rxAns : List RxAnswer} {rxs : List Byte} {x : Exchange}
    (h : exchangeFn conn addr cmd type bank value txAns rxAns rxs = some x) :
    (conn = false ∧ x = ⟨.notConnected, [], []⟩) ∨
    (conn = true ∧ ∃ sent cause,
      offerAll (encodeFrame addr cmd type bank value).bytes txAns = some (sent, some cause) ∧
      x = ⟨.transportError .write cause, sent, []⟩) ∨
    (conn = true ∧ ∃ sent, offerAll (encodeFrame addr cmd type bank value).bytes txAns = some (sent, none) ∧
      ((∃ taken cause, requestAll 9 rxAns rxs = some (taken, some cause) ∧
          x = ⟨.transportError .read cause, sent, taken⟩) ∨
       (∃ taken g, requestAll 9 rxAns rxs = some (taken, none) ∧ Frame.ofBytes taken = some g ∧
          x = ⟨replyOutcome g, sent, taken⟩))) := by
  cases conn with
  | false =>
    cases h
    exact .inl ⟨rfl, rfl⟩
  | true =>
    refine .inr ?_
    match hw : offerAll (encodeFrame addr cmd type bank value).bytes txAns with
    | none => simp [exchangeFn, hw] at h
    | some (sent, some cause) =>
      simp only [exchangeFn, hw, Bool.true_eq_false, if_false, Option.some.injEq] at h
      exact .inl ⟨rfl, sent, cause, rfl, h.symm⟩
    | some (sent, none) =>
      refine .inr ⟨rfl, sent, rfl, ?_⟩
      match hr : requestAll 9 rxAns rxs with
      | none => simp [exchangeFn, hw, hr] at h
      | some (taken, some cause) =>
        simp only [exchangeFn, hw, hr, Bool.true_eq_false, if_false, Option.some.injEq] at h
        exact .inl ⟨taken, cause, rfl, h.symm⟩
      | some (taken, none) =>
        match hg : Frame.ofBytes taken with
        | none => simp [exchangeFn, hw, hr, hg] at h
        | some g =>
          rw [exchangeFn_of_reply hw hr hg, Option.some.injEq] at h
          exact .inr ⟨taken, g, rfl, hg, h.symm⟩

/-- An exchange that took a whole frame sent its command frame and ends with the outcome of that reply. -/
theorem exchangeFn_of_taken {conn : Bool} {addr cmd type bank : Byte} {value : Value} {txAns : List TxAnswer}
    {rxAns : List RxAnswer} {rxs : List Byte} {x : Exchange} {g : Frame}
    (h : exchangeFn conn addr cmd type bank value txAns rxAns rxs = some x) (ht : x.taken = g.bytes) :
    x.outcome = replyOutcome g ∧ x.sent = (encodeFrame addr cmd type bank value).bytes := by
  obtain ⟨-, rfl⟩ | ⟨-, sent, cause, -, rfl⟩ |
    ⟨-, sent, hw, ⟨taken, cause, hr, rfl⟩ | ⟨taken, g', -, hg, rfl⟩⟩ := exchangeFn_cases h
  · cases ht
  · cases ht
  · obtain rfl : taken = g.bytes := ht
    exact absurd (requestAll_failed hr) (lt_irrefl 9)
  · obtain rfl : taken = g.bytes := ht
    rw [Frame.ofBytes_bytes, Option.some.injEq] at hg
    exact ⟨congrArg replyOutcome hg.symm, offerAll_done hw⟩

/-! ## The value of a reply (R86) -/

/-- The two statuses of success (R90, R91). -/
theorem status_of_classifyStatus_ok {status : Byte} {v w : Value} (h : classifyStatus status v = .ok w) :
    status = 100 ∨ status = 101 := by
  unfold classifyStatus at h
  split at h
  next hs => exact .inl (BitVec.eq_of_toNat_eq hs)
  next hs => exact .inr (BitVec.eq_of_toNat_eq hs)
  all_goals cases h

/-- Settles O22: the reply decodes to what it was sealed with, and an exchange that takes it ends with its outcome. -/
theorem valueRoundTrip : Obligations.ValueRoundTrip := by
  have hok (a m e : Byte) (v : Value) : replyOutcome (sealedFrame a m 100 e v) = .ok v :=
    replyOutcome_sealedFrame ..
  refine ⟨fun _ _ _ _ => decodeFrame_sealedFrame .., ?taking, ?whole, fun _ _ _ _ _ => decodeFrame_sealedFrame ..,
    fun _ _ _ => status_of_classifyStatus_ok⟩
  case taking =>
    intro conn addr cmd type bank a m e value v txAns rxAns rxs x h ht
    rw [← hok a m e v]
    exact exchangeFn_of_taken h ht
  case whole =>
    intro addr cmd type bank a m e value v txAns rxAns behind
    rw [← hok a m e v]
    exact exchangeFn_of_reply (offerAll_replicate _ txAns)
      (requestAll_replicate (sealedFrame a m 100 e v).bytes behind rxAns) (Frame.ofBytes_bytes _)

end Sys2Proof.Machine
end

section
/-! PROOF. The classification of the status byte (42_classify.md): its table, how many of the 256 status values each kind
of outcome takes (R99), and the outcome each reply row ends the exchange with (R90 to R98, R110). -/

namespace Sys2Proof.Machine

/-! ## The status table (R99) -/

/-- The table, read as comparisons of the status byte. -/
theorem classifyStatus_eq_table (s : Byte) (v : Value) : classifyStatus s v =
    if s = 100 ∨ s = 101 then .ok v
    else if s = 1 then .protocolStatusError .checksumMismatchReported
    else if s = 2 then .protocolStatusError .invalidCommand
    else if s = 3 then .protocolStatusError .wrongType
    else if s = 4 then .protocolStatusError .invalidType
    else if s = 5 then .protocolStatusError .configurationLocked
    else if s = 6 then .protocolStatusError .commandNotAvailable
    else .protocolStatusError (.unknownStatus s) := by
  simp only [← BitVec.toNat_inj, BitVec.reduceToNat]
  unfold classifyStatus
  split
  case h_9 h100 h101 h1 h2 h3 h4 h5 h6 =>
    rw [if_neg (not_or.mpr ⟨h100, h101⟩), if_neg h1, if_neg h2, if_neg h3, if_neg h4, if_neg h5, if_neg h6]
  all_goals
    rename_i hs
    rw [hs]
    rfl

/-! ## The three kinds of status -/

/-- The statuses of success (R90, R91). -/
def successStatuses : List Byte := [100, 101]

/-- The statuses of the named errors (R92 to R97). -/
def errorStatuses : List Byte := [1, 2, 3, 4, 5, 6]

/-- The six named errors (R92 to R97). -/
def namedErrors : List OpOutcome :=
  [.protocolStatusError .checksumMismatchReported, .protocolStatusError .invalidCommand,
   .protocolStatusError .wrongType, .protocolStatusError .invalidType,
   .protocolStatusError .configurationLocked, .protocolStatusError .commandNotAvailable]

theorem classifyStatus_of_success {s : Byte} (h : s ∈ successStatuses) (v : Value) : classifyStatus s v = .ok v := by
  simp only [successStatuses, List.mem_cons, List.not_mem_nil, or_false] at h
  rw [classifyStatus_eq_table, if_pos h]

/-- The named errors are those of the six statuses, in order; the value is not looked at. -/
theorem map_classifyStatus_errorStatuses (v : Value) : errorStatuses.map (classifyStatus · v) = namedErrors := rfl

theorem classifyStatus_mem_of_error {s : Byte} (h : s ∈ errorStatuses) (v : Value) :
    classifyStatus s v ∈ namedErrors :=
  map_classifyStatus_errorStatuses v ▸ List.mem_map_of_mem h

theorem classifyStatus_of_other {s : Byte} (h : s ∉ successStatuses ++ errorStatuses) (v : Value) :
    classifyStatus s v = .protocolStatusError (.unknownStatus s) := by
  simp only [successStatuses, errorStatuses, List.cons_append, List.nil_append, List.mem_cons, List.not_mem_nil,
    or_false, not_or] at h
  obtain ⟨h100, h101, h1, h2, h3, h4, h5, h6⟩ := h
  rw [classifyStatus_eq_table, if_neg (not_or.mpr ⟨h100, h101⟩), if_neg h1, if_neg h2, if_neg h3, if_neg h4, if_neg h5,
    if_neg h6]

/-! ## The status of a classification: the three kinds of outcome are different -/

theorem ok_not_mem_namedErrors (v : Value) : OpOutcome.ok v ∉ namedErrors := by simp [namedErrors]

theorem unknownStatus_not_mem_namedErrors (s : Byte) :
    OpOutcome.protocolStatusError (.unknownStatus s) ∉ namedErrors := by simp [namedErrors]

theorem classifyStatus_eq_ok_iff (s : Byte) (v : Value) : classifyStatus s v = .ok v ↔ s ∈ successStatuses := by
  refine ⟨fun h => ?_, fun h => classifyStatus_of_success h v⟩
  simpa only [successStatuses, List.mem_cons, List.not_mem_nil, or_false] using status_of_classifyStatus_ok h

theorem classifyStatus_mem_namedErrors_iff (s : Byte) (v : Value) :
    classifyStatus s v ∈ namedErrors ↔ s ∈ errorStatuses := by
  refine ⟨fun h => ?_, fun h => classifyStatus_mem_of_error h v⟩
  by_contra he
  by_cases hs : s ∈ successStatuses
  · exact ok_not_mem_namedErrors v (classifyStatus_of_success hs v ▸ h)
  · have ho : s ∉ successStatuses ++ errorStatuses := mt List.mem_append.mp (not_or.mpr ⟨hs, he⟩)
    exact unknownStatus_not_mem_namedErrors s (classifyStatus_of_other ho v ▸ h)

theorem classifyStatus_eq_unknownStatus_iff (s : Byte) (v : Value) :
    classifyStatus s v = .protocolStatusError (.unknownStatus s) ↔ s ∉ successStatuses ++ errorStatuses := by
  refine ⟨fun h hm => ?_, fun h => classifyStatus_of_other h v⟩
  obtain hs | he := List.mem_append.mp hm
  · cases (classifyStatus_of_success hs v).symm.trans h
  · exact unknownStatus_not_mem_namedErrors s (h ▸ classifyStatus_mem_of_error he v)

/-! ## Counting status values -/

/-- A test that passes exactly the statuses of a list without repetition passes as many of the 256 values. -/
theorem length_filter_status_of_mem {p : Byte → Prop} [DecidablePred p] {l : List Byte} (hl : l.Nodup)
    (hp : ∀ s, p s ↔ s ∈ l) :
    ((List.range 256).filter (fun n => decide (p (BitVec.ofNat 8 n)))).length = l.length := by
  have hperm : ((List.range 256).filter (fun n => decide (p (BitVec.ofNat 8 n)))).Perm (l.map BitVec.toNat) := by
    refine (List.perm_ext_iff_of_nodup (List.nodup_range.filter _)
      (hl.map fun _ _ => BitVec.eq_of_toNat_eq)).mpr fun n => ?_
    simp only [List.mem_filter, List.mem_range, decide_eq_true_eq, hp, List.mem_map]
    constructor
    · rintro ⟨hn, hm⟩
      exact ⟨_, hm, by rw [BitVec.toNat_ofNat, Nat.mod_eq_of_lt hn]⟩
    · rintro ⟨s, hm, rfl⟩
      exact ⟨s.isLt, by rwa [BitVec.ofNat_toNat, BitVec.setWidth_eq]⟩
  rw [hperm.length_eq, List.length_map]

/-- A test that passes exactly the statuses outside such a list passes the rest of the 256 values. -/
theorem length_filter_status_of_not_mem {p : Byte → Prop} [DecidablePred p] {l : List Byte} (hl : l.Nodup)
    (hp : ∀ s, p s ↔ s ∉ l) :
    ((List.range 256).filter (fun n => decide (p (BitVec.ofNat 8 n)))).length = 256 - l.length := by
  have hin := length_filter_status_of_mem (p := fun s => ¬ p s) hl fun s => not_iff_comm.mp (hp s).symm
  have hsum := List.length_eq_length_filter_add (l := List.range 256) (fun n => decide (p (BitVec.ofNat 8 n)))
  simp only [decide_not] at hin
  rw [List.length_range] at hsum
  omega

/-- Settles O23: the table, and the 2, 6 and 256 - 8 statuses of the three kinds of outcome. -/
theorem classifyIsTheStatusTable : Obligations.ClassifyIsTheStatusTable :=
  ⟨classifyStatus_eq_table, fun v =>
    ⟨length_filter_status_of_mem (by decide) fun s => classifyStatus_eq_ok_iff s v,
     length_filter_status_of_mem (by decide) fun s => classifyStatus_mem_namedErrors_iff s v,
     length_filter_status_of_not_mem (by decide) fun s => classifyStatus_eq_unknownStatus_iff s v⟩⟩

/-! ## The reply rows (R90 to R98, R110) -/

/-- An operation whose meaning is `Finish` ends the exchange with that outcome (R112). -/
theorem ends_of_exec_eq_finish {i : Instr} {s : State} {o : OpOutcome} (h : exec i s = .next (s.finish o)) :
    ∃ t, exec i s = .next t ∧ Ended o s t :=
  ⟨_, h, finish_ended o s⟩

/-- Settles O25: the meaning of each row is `Finish` with the outcome of its rule. The rows of the eight named statuses
are classified by the status; the last two rows are so for any fields, also those no decode yields (log 23). -/
theorem replyRowOutcomes : Obligations.ReplyRowOutcomes := by
  intro s r m e st k v
  have hrow (status : Byte) : ∃ t, exec (replyRow status r m e v) s = .next t ∧ Ended (classifyStatus status v) s t :=
    ends_of_exec_eq_finish (exec_replyRow_classify ..)
  have hunknown : exec (.rplUnknown r m st e v) s = .next (s.finish (.protocolStatusError (.unknownStatus st))) := rfl
  have hbadck : exec (.rplBadck r m st e v k) s = .next (s.finish .checksumError) := rfl
  exact ⟨hrow 100, hrow 101, hrow 1, hrow 2, hrow 3, hrow 4, hrow 5, hrow 6, ends_of_exec_eq_finish hunknown,
    ends_of_exec_eq_finish hbadck⟩

end Sys2Proof.Machine
end

section
/-! PROOF. The executor phase by phase (43_executor.md): what `EXEC`, `ATTACH` and `DETACH` do in each phase (R101 to
R111, R120, R121), the transitions of `PHASE` (R114), and the callers' ports (R102). -/

namespace Sys2Proof.Machine

/-! ## The action of `EXEC` in each phase (R114) -/

section
variable {s : State} (cmd type bank : Byte) (value : Value)

theorem exec_of_chkconn (h : s.phase = .chkconn) : Machine.exec (.exec cmd type bank value) s = checkConn s := by
  simp only [Machine.exec, execExec, exchange, h]

theorem exec_of_encode (h : s.phase = .encode) :
    Machine.exec (.exec cmd type bank value) s = encodePhase cmd type bank value s := by
  simp only [Machine.exec, execExec, exchange, h]

theorem exec_of_tsend (h : s.phase = .tsend) :
    Machine.exec (.exec cmd type bank value) s = traceSend cmd type bank value s := by
  simp only [Machine.exec, execExec, exchange, h]

theorem exec_of_write (h : s.phase = .write) :
    Machine.exec (.exec cmd type bank value) s = writeByte s.regs.txf s := by
  simp only [Machine.exec, execExec, exchange, h]

theorem exec_of_read (h : s.phase = .read) : Machine.exec (.exec cmd type bank value) s = readByte s := by
  simp only [Machine.exec, execExec, exchange, h]

theorem exec_of_decode (h : s.phase = .decode) :
    Machine.exec (.exec cmd type bank value) s = decodePhase s.regs.rxf s := by
  simp only [Machine.exec, execExec, exchange, h]

theorem exec_of_trecv (h : s.phase = .trecv) : Machine.exec (.exec cmd type bank value) s = traceReceive s := by
  simp only [Machine.exec, execExec, exchange, h]

theorem exec_of_classify (h : s.phase = .classify) :
    Machine.exec (.exec cmd type bank value) s = classifyPhase s := by
  simp only [Machine.exec, execExec, exchange, h]

end

/-! ## The grant (R101) -/

theorem grant_of_granted (op : OpCode) (f : BitVec 58 → HostOperands) {s : State} {caller : Nat} {rest : List Nat}
    {w : BitVec 58} (hl : s.lock = false) (harb : s.arb = caller :: rest) (hreq : s.requestOf caller = some w) :
    s.grant op f = { s with
      lock := true
      phase := match op with
        | .exec => .chkconn
        | .attach => .sys
        | .detach => .sys
      arb := rest
      req := s.req.filter (fun r => r.1 != caller)
      regs := { s.regs with owner := caller, op := op, cmd := (f w).cmd, type := (f w).type,
                            bank := (f w).bank, value := (f w).value } } := by
  have hg : s.granted = some (caller, w) := (granted_eq_some ..).mpr ⟨rest, harb, hreq⟩
  rcases grant_cases op f s with ⟨hno, -⟩ | ⟨caller', w', -, hg', h⟩
  · simp [hl, hg] at hno
  · cases hg.symm.trans hg'
    obtain rfl : s.arb.tail = rest := by rw [harb, List.tail_cons]
    exact h

/-- Settles O28: in `IDLE` each of the three operations is the grant, with the operand latches its own. -/
theorem grantLatchesRequest : Obligations.GrantLatchesRequest := by
  intro s caller rest w hp hl harb hreq
  refine ⟨fun cmd type bank value => ?_, ?_, ?_⟩
  · simp only [Machine.exec, execExec, exchange, hp, grant_of_granted _ _ hl harb hreq]
  · simp only [Machine.exec, execAttach, handleRequest, hp, grant_of_granted _ _ hl harb hreq, requestOperands]
  · simp only [Machine.exec, execDetach, handleRequest, hp, grant_of_granted _ _ hl harb hreq, requestOperands]

/-! ## `CHKCONN` (R103) -/

theorem checkConn_of_attached {s : State} (h : s.conn = true) : checkConn s = .next { s with phase := .encode } :=
  if_pos h

theorem checkConn_of_detached {s : State} (h : s.conn = false) : checkConn s = .next (s.finish .notConnected) :=
  if_neg (Bool.eq_false_iff.mp h)

/-- Settles O30: `CHKCONN` by the value of `CONN`. -/
theorem checkConnTestsConn : Obligations.CheckConnTestsConn := by
  intro s cmd type bank value hp
  rw [exec_of_chkconn _ _ _ _ hp]
  exact ⟨fun h => ⟨_, checkConn_of_detached h, finish_ended ..⟩, checkConn_of_attached⟩

/-! ## `ENCODE` and `TSEND` (R104, R105) -/

/-- Settles O18: the register writes of `ENCODE`, with the checksum as a sum over the integers. -/
theorem encodeBuildsCommandFrame : Obligations.EncodeBuildsCommandFrame := by
  refine ⟨fun s cmd type bank value => ?_, ?_, fun s cmd type bank value hp => exec_of_encode _ _ _ _ hp⟩
  · rw [← checksum_eq_spanSum, Machine.exec, execEncode, encodePhase, Regs.encode_eq]
  · rintro addr cmd type bank value f rfl
    exact ⟨rfl, rfl, rfl, rfl, rfl, (valid_iff_spanSum _).mp (sealedFrame_valid ..)⟩

/-- Settles O31: the meaning of `TSEND`, `traceSend`. -/
theorem sendIsTracedBeforeWriting : Obligations.SendIsTracedBeforeWriting := by
  intro s cmd type bank value hp
  rw [exec_of_tsend _ _ _ _ hp]
  rfl

/-! ## `WRITE` (R106) -/

section
variable (f : Frame) {s : State} {rest : List TxAnswer}

theorem writeByte_of_ok (ha : s.txAns = .ok :: rest) (hc : s.regs.cnt.toNat < 8) :
    writeByte f s = .next { s with
      txAns := rest, txs := s.txs ++ [f.get s.regs.cnt.toNat], regs := { s.regs with cnt := s.regs.cnt + 1 }
      phase := .write } := by
  simp only [writeByte, State.memWrite, ha, if_neg (show ¬ 9 ≤ s.regs.cnt.toNat by omega), if_neg hc.ne]

theorem writeByte_of_ok_last (ha : s.txAns = .ok :: rest) (hc : s.regs.cnt.toNat = 8) :
    writeByte f s = .next { s with
      txAns := rest, txs := s.txs ++ [f.b8], regs := { s.regs with cnt := 0 }, phase := .read } := by
  simp only [writeByte, State.memWrite, ha, hc]
  rfl

theorem writeByte_of_fail {cause : Nat} {took : Bool} (ha : s.txAns = .fail cause took :: rest)
    (hc : s.regs.cnt.toNat ≤ 8) :
    writeByte f s = .next (({ s with
        txAns := rest, txs := if took = true then s.txs ++ [f.get s.regs.cnt.toNat] else s.txs } : State).finish
      (.transportError .write cause)) := by
  simp only [writeByte, State.memWrite, ha, if_neg (show ¬ 9 ≤ s.regs.cnt.toNat by omega), State.raise_eq_finish]

end

/-- Settles O32: both operations store a byte of their frame, and each clause is one answer to the store. -/
theorem writeOffersNextByte : Obligations.WriteOffersNextByte := by
  intro s i f cmd type bank value hp hc hi
  have hx : Machine.exec i s = writeByte f s := by
    rcases hi with ⟨rfl, rfl⟩ | ⟨rfl, rfl⟩
    · exact exec_of_write _ _ _ _ hp
    · rfl
  rw [hx]
  refine ⟨writeByte_of_unanswered f hc, fun rest ha hlt => ?_, fun rest => writeByte_of_ok_last f,
    fun rest cause took ha => ⟨_, writeByte_of_fail f ha hc, finish_ended ..⟩⟩
  rw [writeByte_of_ok f ha hlt, ← hp]

/-! ## `READ` (R107) -/

section
variable {s : State} {rest : List RxAnswer}

theorem readByte_of_byte {b : Byte} {bs : List Byte} (ha : s.rxAns = .deliver :: rest) (hb : s.rxs = b :: bs)
    (hc : s.regs.cnt.toNat < 8) :
    readByte s = .next { s with
      rxAns := rest, rxs := bs
      regs := { s.regs with rxf := s.regs.rxf.set s.regs.cnt.toNat b, cnt := s.regs.cnt + 1 }, phase := .read } := by
  simp only [readByte, State.memRead, ha, hb, if_neg (show ¬ 9 ≤ s.regs.cnt.toNat by omega), if_neg hc.ne]

theorem readByte_of_byte_last {b : Byte} {bs : List Byte} (ha : s.rxAns = .deliver :: rest) (hb : s.rxs = b :: bs)
    (hc : s.regs.cnt.toNat = 8) :
    readByte s = .next { s with
      rxAns := rest, rxs := bs, phase := .decode, regs := { s.regs with rxf := { s.regs.rxf with b8 := b } } } := by
  simp only [readByte, State.memRead, ha, hb, hc]
  rfl

theorem readByte_of_fail {cause : Nat} (ha : s.rxAns = .fail cause :: rest) (hc : s.regs.cnt.toNat ≤ 8) :
    readByte s = .next (({ s with rxAns := rest } : State).finish (.transportError .read cause)) := by
  simp only [readByte, State.memRead, ha, if_neg (show ¬ 9 ≤ s.regs.cnt.toNat by omega), State.raise_eq_finish]

end

/-- Settles O33: each clause is one answer to the load. -/
theorem readTakesNextByte : Obligations.ReadTakesNextByte := by
  intro s cmd type bank value hp hc
  rw [exec_of_read _ _ _ _ hp]
  refine ⟨fun ha => readByte_of_unanswered hc (.inl ha), fun rest ha hb => readByte_of_unanswered hc (.inr ⟨rest, ha, hb⟩),
    fun rest b bs ha hb hlt => ?_, fun rest b bs => readByte_of_byte_last,
    fun rest cause ha => ⟨_, readByte_of_fail ha hc, finish_ended ..⟩⟩
  rw [readByte_of_byte ha hb hlt, ← hp]

/-! ## `DECODE` and `TRECV` (R108, R109) -/

/-- Settles O19: the register writes of `DECODE`, with the checksum as a sum over the integers. -/
theorem decodeLatchesReply : Obligations.DecodeLatchesReply := by
  refine ⟨fun s f => ?_, fun s cmd type bank value hp => exec_of_decode _ _ _ _ hp, fun _ => rfl⟩
  rw [← checksum_eq_spanSum, Machine.exec, execDecode, decodePhase, Regs.decode_eq]
  rfl

theorem traceReceive_of_good {s : State} (h : s.regs.ckok = true) :
    traceReceive s = .next { s.trace (.onReceive s.regs.rxf s.regs.rv) with phase := .classify } :=
  if_pos h

theorem traceReceive_of_bad {s : State} (h : s.regs.ckok = false) :
    traceReceive s = .next { s.draw.2.trace (.onReceive s.regs.rxf s.draw.1) with phase := .classify } :=
  if_neg (Bool.eq_false_iff.mp h)

/-- Settles O34: the value of the event is `RV`, or the next free value. -/
theorem receiveIsTraced : Obligations.ReceiveIsTraced := by
  intro s cmd type bank value hp
  rw [exec_of_trecv _ _ _ _ hp]
  exact ⟨traceReceive_of_good, fun h => ⟨s.draw.1, s.draws + 1, traceReceive_of_bad h⟩⟩

/-! ## `CLASSIFY` (R110, R111) -/

theorem classifyPhase_of_good {s : State} (h : s.regs.ckok = true) :
    classifyPhase s = .next (s.finish (classifyStatus s.regs.st s.regs.rv)) :=
  if_pos h

theorem classifyPhase_of_bad {s : State} (h : s.regs.ckok = false) : classifyPhase s = .next (s.finish .checksumError) :=
  if_neg (Bool.eq_false_iff.mp h)

/-- Settles O24: the meaning of the row is `Finish` with the classification. -/
theorem classifyEndsTheExchange : Obligations.ClassifyEndsTheExchange := fun _ _ _ => ends_of_exec_eq_finish rfl

/-- Settles O35: `CLASSIFY` by the value of `CKOK`. -/
theorem classifyTestsChecksumFirst : Obligations.ClassifyTestsChecksumFirst := by
  intro s cmd type bank value hp
  have hx := exec_of_classify cmd type bank value hp
  exact ⟨fun h => ends_of_exec_eq_finish (hx.trans (classifyPhase_of_bad h)),
    fun h => ends_of_exec_eq_finish (hx.trans (classifyPhase_of_good h))⟩

/-! ## `ATTACH` and `DETACH` in `SYS` (R120, R121) -/

theorem handleRequest_of_sys (conn : Bool) {op : OpCode} {s : State} (hp : s.phase = .sys) (hop : s.regs.op = op) :
    handleRequest op conn s = .next ((s.setConn conn).finish (.ok 0)) := by
  simp only [handleRequest, hp, if_pos hop]

/-- Settles O36: the request is handled with `CONN` set. -/
theorem attachSetsConn : Obligations.AttachSetsConn := fun s hp hop =>
  ⟨_, handleRequest_of_sys true hp hop, finish_ended _ (s.setConn true)⟩

/-- Settles O37: the request is handled with `CONN` cleared. -/
theorem detachClearsConn : Obligations.DetachClearsConn := fun s hp hop =>
  ⟨_, handleRequest_of_sys false hp hop, finish_ended _ (s.setConn false)⟩

theorem blockStep_of_sys_attach {s : State} (hp : s.phase = .sys) (hop : s.regs.op = .attach) :
    blockStep s = .next ((s.setConn true).finish (.ok 0)) := by
  rw [← handleRequest_of_sys true hp hop]
  simp only [blockStep, State.selected, hp, hop]
  rfl

theorem blockStep_of_sys_detach {s : State} (hp : s.phase = .sys) (hop : s.regs.op = .detach) :
    blockStep s = .next ((s.setConn false).finish (.ok 0)) := by
  rw [← handleRequest_of_sys false hp hop]
  simp only [blockStep, State.selected, hp, hop]
  rfl

theorem runSteps_two {s t u : State} (h : step s = .next t) (k : step t = .next u) : runSteps 2 s = .next u :=
  (runSteps_step h 1).trans (runSteps_step k 0)

/-- Settles O53: the grant, and the action of `SYS`. -/
theorem attachDetachRunToTheEnd : Obligations.AttachDetachRunToTheEnd := by
  intro s caller w attach henv hp hl harb hreq hdec
  have hgrant : blockStep s = Machine.exec (decodeRequest w) s :=
    blockStep_of_granted hp hl ((granted_eq_some ..).mpr ⟨[], harb, hreq⟩)
  obtain ⟨-, hattach, hdetach⟩ := grantLatchesRequest s caller [] w hp hl harb hreq
  cases attach with
  | true =>
    rw [hdec, if_pos rfl, hattach, ← step_of_env_nil henv] at hgrant
    exact ⟨_, runSteps_two hgrant (Eq.trans (step_of_env_nil henv) (blockStep_of_sys_attach rfl rfl)), rfl, rfl, rfl, rfl,
      rfl, rfl, rfl, rfl⟩
  | false =>
    rw [hdec, if_neg Bool.false_ne_true, hdetach, ← step_of_env_nil henv] at hgrant
    exact ⟨_, runSteps_two hgrant (Eq.trans (step_of_env_nil henv) (blockStep_of_sys_detach rfl rfl)), rfl, rfl, rfl, rfl,
      rfl, rfl, rfl, rfl⟩

/-! ## The transitions of `PHASE` (R114) -/

/-- In `IDLE` nothing is granted, or the request the arbiter chose is (R101; log 8). -/
theorem blockStep_of_idle_cases {s t : State} (hp : s.phase = .idle) (hb : blockStep s = .next t) :
    ((s.lock = true ∨ s.granted = none) ∧ t.phase = .idle ∧ t.lock = s.lock) ∨
    (s.lock = false ∧ ∃ caller w, s.granted = some (caller, w) ∧ Machine.exec (decodeRequest w) s = .next t) := by
  cases hl : s.lock with
  | true =>
    simp only [blockStep, State.selected, hp, hl, Bool.true_or, if_true] at hb
    cases hb
    exact .inl ⟨.inl rfl, hp, hl⟩
  | false =>
    cases hg : s.granted with
    | none =>
      cases (blockStep_of_not_granted hp hl hg).symm.trans hb
      exact .inl ⟨.inr rfl, hp, hl⟩
    | some g => exact .inr ⟨rfl, g.1, g.2, rfl, (blockStep_of_granted hp hl hg).symm.trans hb⟩

/-- What the field `op` of the granted word leads to (R56, R101). -/
theorem grant_phase_of_request {s t : State} {caller : Nat} {w : BitVec 58} (hp : s.phase = .idle) (hl : s.lock = false)
    (hg : s.granted = some (caller, w)) (h : Machine.exec (decodeRequest w) s = .next t) :
    t.lock = true ∧ t.regs.owner = caller ∧
      ((w.toNat / 2 ^ 56 = 0 ∧ t.phase = .chkconn ∧ t.regs.op = .exec) ∨
        (w.toNat / 2 ^ 56 = 1 ∧ t.phase = .sys ∧ t.regs.op = .attach) ∨
        (w.toNat / 2 ^ 56 = 2 ∧ t.phase = .sys ∧ t.regs.op = .detach)) := by
  obtain ⟨rest, harb, hreq⟩ := (granted_eq_some ..).mp hg
  obtain ⟨hexec, hattach, hdetach⟩ := grantLatchesRequest s caller rest w hp hl harb hreq
  have hop : w.toNat / 2 ^ 56 = 0 ∨ w.toNat / 2 ^ 56 = 1 ∨ w.toNat / 2 ^ 56 = 2 ∨ w.toNat / 2 ^ 56 = 3 := by omega
  rcases hop with hw | hw | hw | hw
  · rw [decodeRequest_eq_exec hw, hexec] at h
    cases h
    exact ⟨rfl, rfl, .inl ⟨hw, rfl, rfl⟩⟩
  · rw [decodeRequest_eq_attach hw, hattach] at h
    cases h
    exact ⟨rfl, rfl, .inr (.inl ⟨hw, rfl, rfl⟩)⟩
  · rw [decodeRequest_eq_detach hw, hdetach] at h
    cases h
    exact ⟨rfl, rfl, .inr (.inr ⟨hw, rfl, rfl⟩)⟩
  · rw [decodeRequest_eq_hreqReserved hw] at h
    cases h

/-- Settles O39: from each phase, the cases of its one action. -/
theorem phaseTransitions : Obligations.PhaseTransitions := by
  intro s t henv hstep
  rw [step_of_env_nil henv] at hstep
  cases hp : s.phase with
  | idle =>
    refine (blockStep_of_idle_cases hp hstep).imp_right fun ⟨hl, caller, w, hg, hx⟩ => ?_
    obtain ⟨hlock, howner, hop⟩ := grant_phase_of_request hp hl hg hx
    exact ⟨hl, hlock, caller, w, hg, howner, hop⟩
  | sys =>
    cases hop : s.regs.op with
    | exec => exact absurd hop (op_ne_exec_of_sys hp hstep)
    | attach =>
      cases (blockStep_of_sys_attach hp hop).symm.trans hstep
      exact ⟨rfl, .inl ⟨rfl, rfl⟩⟩
    | detach =>
      cases (blockStep_of_sys_detach hp hop).symm.trans hstep
      exact ⟨rfl, .inr ⟨rfl, rfl⟩⟩
  | chkconn =>
    rw [blockStep_of_chkconn hp] at hstep
    cases hconn : s.conn with
    | false =>
      cases (checkConn_of_detached hconn).symm.trans hstep
      exact .inl ⟨rfl, rfl⟩
    | true =>
      cases (checkConn_of_attached hconn).symm.trans hstep
      exact .inr ⟨rfl, rfl⟩
  | encode =>
    cases (blockStep_of_encode hp).symm.trans hstep
    rfl
  | tsend =>
    cases (blockStep_of_tsend hp).symm.trans hstep
    exact ⟨rfl, rfl⟩
  | write =>
    rw [blockStep_of_write_txf hp] at hstep
    rcases writeByte_cases s.regs.txf s with
      ⟨-, hw⟩ | ⟨-, ⟨ha, hw⟩ | ⟨rest, ha, hc, hw⟩ | ⟨rest, ha, hc, hw⟩ | ⟨cause, took, rest, ha, hw⟩⟩ <;>
      cases hw.symm.trans hstep
    · exact .inl ⟨ha, rfl⟩
    · exact .inr (.inl ⟨rest, ha, .inr ⟨hc, rfl, rfl⟩⟩)
    · exact .inr (.inl ⟨rest, ha, .inl ⟨hc, rfl, toNat_add_one hc⟩⟩)
    · exact .inr (.inr ⟨cause, took, rest, ha, rfl⟩)
  | read =>
    rw [blockStep_of_read hp] at hstep
    rcases readByte_cases s with
      ⟨-, hr⟩ | ⟨-, ⟨ha, hr⟩ | ⟨rest, b, bs, ha, hb, hc, hr⟩ | ⟨rest, b, bs, ha, hb, hc, hr⟩ | ⟨cause, rest, ha, hr⟩⟩ <;>
      cases hr.symm.trans hstep
    · exact .inl ⟨ha, rfl⟩
    · exact .inr (.inl ⟨rest, b, bs, ha, hb, .inr ⟨hc, rfl⟩⟩)
    · exact .inr (.inl ⟨rest, b, bs, ha, hb, .inl ⟨hc, rfl, toNat_add_one hc⟩⟩)
    · exact .inr (.inr ⟨cause, rest, ha, rfl⟩)
  | decode =>
    cases (blockStep_of_decode hp).symm.trans hstep
    rfl
  | trecv =>
    rw [blockStep_of_trecv hp, traceReceive] at hstep
    split at hstep <;> cases hstep <;> rfl
  | classify =>
    obtain ⟨o, hb⟩ := blockStep_of_classify hp
    cases hb.symm.trans hstep
    rfl

/-! ## The callers' ports (R102) -/

/-- A caller has one operation outstanding at most, so an outcome it has not taken is all it has. -/
theorem not_mem_req_of_mem_rsp {s : State} (h : s.outstanding.Nodup) {caller : Nat} (hc : caller ∈ s.rsp.map Prod.fst) :
    caller ∉ s.req.map Prod.fst ∧ caller ∉ (if s.lock then [s.regs.owner] else []) := by
  obtain ⟨hports, -, hlock⟩ := List.nodup_append.mp h
  obtain ⟨-, -, hreq⟩ := List.nodup_append.mp hports
  exact ⟨fun hr => hreq _ hr _ hc rfl, fun hl => hlock _ (List.mem_append_right _ hc) _ hl rfl⟩

/-- Settles O47: the event's effect, with `mayPresent` as what the caller has outstanding. -/
theorem callerPresentsOneRequest : Obligations.CallerPresentsOneRequest := by
  obtain ⟨-, -, -, -, -, hevent⟩ := stepRunsDecodedOperation
  refine ⟨fun s caller w rest henv => ?_, fun s caller rest henv => ⟨hevent s _ rest henv nofun, fun hinv hc hout => ?_⟩⟩
  · have hmay : s.mayPresent caller = true ↔ caller < s.cfg.nCallers ∧ caller ∉ s.outstanding := mayPresent_iff s caller
    rw [hevent s _ rest henv nofun, State.environment]
    refine ⟨fun hbusy => ?_, fun hfree hlt => ?_⟩
    · have hno : ¬ s.mayPresent caller = true := fun h => by
        obtain ⟨hlt, hfree⟩ := hmay.mp h
        exact hbusy.elim hfree (Nat.not_le.mpr hlt)
      exact congrArg _ (if_neg hno)
    · exact congrArg _ (if_pos (hmay.mpr ⟨hlt, hfree⟩))
  · obtain ⟨hreq, hlock⟩ := not_mem_req_of_mem_rsp hinv.one_each hc
    rcases List.mem_append.mp hout with hports | hl
    · rcases List.mem_append.mp hports with hr | hgone
      · exact hreq hr
      · simp at hgone
    · exact hlock hl

end Sys2Proof.Machine
end

section
/-! PROOF. The run of an exchange (R116): from the grant on, phase by phase, the machine computes the one function of
the transport's answers. -/

namespace Sys2Proof

/-! ## The bytes of a frame in order (R7) -/

theorem Frame.drop_bytes (f : Frame) {n : Nat} (h : n ≤ 8) : f.bytes.drop n = f.get n :: f.bytes.drop (n + 1) := by
  interval_cases n <;> rfl

theorem Frame.take_bytes_set (f : Frame) (b : Byte) {n : Nat} (h : n ≤ 8) :
    (f.set n b).bytes.take (n + 1) = f.bytes.take n ++ [b] := by
  interval_cases n <;> rfl

theorem Frame.bytes_of_ofBytes {bs : List Byte} {f : Frame} (h : Frame.ofBytes bs = some f) : f.bytes = bs := by
  unfold Frame.ofBytes at h
  split at h <;> cases h
  rfl

/-- A frame is determined by its bytes. -/
theorem Frame.bytes_inj {f g : Frame} (h : f.bytes = g.bytes) : f = g :=
  Option.some.inj (congrArg Frame.ofBytes h)

end Sys2Proof

namespace Sys2Proof.Machine

/-! ## Runs of at most so many steps -/

/-- At most `n` steps take `s` to `t`. -/
def RunsWithin (n : Nat) (s t : State) : Prop := ∃ m ≤ n, runSteps m s = .next t

theorem RunsWithin.trans {m n : Nat} {s t u : State} (h : RunsWithin m s t) (k : RunsWithin n t u) :
    RunsWithin (m + n) s u := by
  obtain ⟨i, hi, hs⟩ := h
  obtain ⟨j, hj, ht⟩ := k
  exact ⟨i + j, Nat.add_le_add hi hj, (runSteps_add i j hs).trans ht⟩

theorem RunsWithin.mono {m n : Nat} {s t : State} (h : RunsWithin m s t) (hmn : m ≤ n) : RunsWithin n s t := by
  obtain ⟨i, hi, hs⟩ := h
  exact ⟨i, hi.trans hmn, hs⟩

/-- One action of the block. -/
theorem RunsWithin.of_blockStep {s t : State} (henv : s.env = []) (h : blockStep s = .next t) : RunsWithin 1 s t :=
  ⟨1, Nat.le_refl 1, runSteps_step ((step_of_env_nil henv).trans h) 0⟩

/-- A run that has come to rest stays there. -/
theorem RunsWithin.runSteps_eq {n : Nat} {s t : State} (h : RunsWithin n s t) (hrest : step t = .next t) :
    runSteps n s = .next t := by
  obtain ⟨m, hm, hs⟩ := h
  rw [← Nat.add_sub_cancel' hm, runSteps_add m _ hs, runSteps_self hrest]

/-- An idle block without a choice of the arbiter rests (R100; log 8). -/
theorem step_of_idle_of_no_choice {s : State} (henv : s.env = []) (hp : s.phase = .idle) (harb : s.arb = []) :
    step s = .next s := by
  simp only [step_of_env_nil henv, blockStep, State.selected, hp, harb, List.isEmpty_nil, Bool.or_true, if_true]

/-! ## The write (R106) -/

/-- What a write leaves that added `sent` to `TXS` and failed with `code`, or did not fail. -/
def State.written (s : State) (sent : List Byte) (code : Option Nat) (later : List TxAnswer) : State :=
  match code with
  | none => { s with txAns := later, txs := s.txs ++ sent, regs := { s.regs with cnt := 0 }, phase := .read }
  | some cause =>
    ({ s with txAns := later, txs := s.txs ++ sent } : State).finish (.transportError .write cause)

/-- The state after one store that was answered `ok` and is not the last (R106). -/
def State.wroteByte (s : State) (b : Byte) (later : List TxAnswer) : State :=
  { s with txAns := later, txs := s.txs ++ [b], regs := { s.regs with cnt := s.regs.cnt + 1 }, phase := .write }

theorem State.written_wroteByte (s : State) (b : Byte) (sent : List Byte) (code : Option Nat)
    (rest later : List TxAnswer) : (s.wroteByte b rest).written sent code later = s.written (b :: sent) code later := by
  have htxs : (s.wroteByte b rest).txs ++ sent = s.txs ++ b :: sent := by
    rw [State.wroteByte, List.append_assoc, List.singleton_append]
  cases code <;> simp only [State.written, htxs] <;> rfl

/-- From byte `CNT` on, `WRITE` offers the bytes of `TXF` as `offerAll` does. -/
theorem write_run (ans : List TxAnswer) : ∀ {n : Nat} {s : State} {sent : List Byte} {code : Option Nat},
    s.env = [] → s.phase = .write → s.regs.cnt.toNat + n = 8 → s.txAns = ans →
    offerAll (s.regs.txf.bytes.drop s.regs.cnt.toNat) ans = some (sent, code) →
    ∃ later, RunsWithin (n + 1) s (s.written sent code later) := by
  induction ans with
  | nil =>
    intro n s sent code henv hp hn ha h
    rw [Frame.drop_bytes _ (by omega)] at h
    cases h
  | cons answer rest ih =>
    intro n s sent code henv hp hn ha h
    have hc : s.regs.cnt.toNat ≤ 8 := by omega
    rw [Frame.drop_bytes _ hc] at h
    have hstep {t : State} (hw : writeByte s.regs.txf s = .next t) : RunsWithin 1 s t :=
      .of_blockStep henv ((blockStep_of_write_txf hp).trans hw)
    cases answer with
    | fail cause took =>
      cases h
      refine ⟨rest, RunsWithin.mono (m := 1) ?_ (Nat.le_add_left 1 n)⟩
      have hend := hstep (writeByte_of_fail s.regs.txf ha hc)
      cases took <;> simpa [State.written] using hend
    | ok =>
      simp only [offerAll, Option.map_eq_some_iff, Prod.mk.injEq, Prod.exists] at h
      obtain ⟨sent', code', hrest, rfl, rfl⟩ := h
      cases n with
      | zero =>
        have h8 : s.regs.cnt.toNat = 8 := hn
        rw [h8] at hrest ⊢
        cases hrest
        exact ⟨rest, hstep (writeByte_of_ok_last s.regs.txf ha h8)⟩
      | succ n =>
        have hlt : s.regs.cnt.toNat < 8 := by omega
        have hcnt : (s.regs.cnt + 1).toNat = s.regs.cnt.toNat + 1 := toNat_add_one hlt
        have hnext := hstep (writeByte_of_ok s.regs.txf ha hlt)
        obtain ⟨later, hrun⟩ := ih (n := n) (s := s.wroteByte (s.regs.txf.get s.regs.cnt.toNat) rest) henv rfl
          (by simp only [State.wroteByte, hcnt]; omega) rfl (hcnt ▸ hrest)
        rw [State.written_wroteByte] at hrun
        exact ⟨later, (hnext.trans hrun).mono (by omega)⟩

/-! ## The read (R107) -/

/-- What a read leaves that took `taken` from `RXS`, leaving `rxs`, and failed with `code`, or did not fail and put the
frame `g` together. -/
def State.readIn (s : State) (rxs : List Byte) (g : Frame) (code : Option Nat) (later : List RxAnswer) : State :=
  match code with
  | none => { s with rxAns := later, rxs := rxs, regs := { s.regs with cnt := 8, rxf := g }, phase := .decode }
  | some cause => ({ s with rxAns := later, rxs := rxs } : State).finish (.transportError .read cause)

/-- The state after one load that brought a byte which is not the last (R107). -/
def State.tookByte (s : State) (b : Byte) (rxs : List Byte) (later : List RxAnswer) : State :=
  { s with
    rxAns := later, rxs := rxs, phase := .read
    regs := { s.regs with rxf := s.regs.rxf.set s.regs.cnt.toNat b, cnt := s.regs.cnt + 1 } }

theorem State.readIn_tookByte (s : State) (b : Byte) (bs rxs : List Byte) (g : Frame) (code : Option Nat)
    (rest later : List RxAnswer) : (s.tookByte b bs rest).readIn rxs g code later = s.readIn rxs g code later := by
  cases code <;> rfl

/-- From byte `CNT` on, `READ` takes the bytes that `requestAll` does, and puts them into `RXF` behind those it has. -/
theorem read_run (ans : List RxAnswer) : ∀ {n : Nat} {s : State} {taken : List Byte} {code : Option Nat},
    s.env = [] → s.phase = .read → s.regs.cnt.toNat + n = 8 → s.rxAns = ans →
    requestAll (n + 1) ans s.rxs = some (taken, code) →
    ∃ rxs g later, s.rxs = taken ++ rxs ∧ RunsWithin (n + 1) s (s.readIn rxs g code later) ∧
      (code = none → g.bytes = s.regs.rxf.bytes.take s.regs.cnt.toNat ++ taken) := by
  induction ans with
  | nil =>
    intro n s taken code henv hp hn ha h
    cases h
  | cons answer rest ih =>
    intro n s taken code henv hp hn ha h
    have hstep {t : State} (hr : readByte s = .next t) : RunsWithin 1 s t :=
      .of_blockStep henv ((blockStep_of_read hp).trans hr)
    have hc : s.regs.cnt.toNat ≤ 8 := by omega
    cases answer with
    | fail cause =>
      cases h
      exact ⟨s.rxs, s.regs.rxf, rest, rfl, (hstep (readByte_of_fail ha hc)).mono (Nat.le_add_left 1 n), nofun⟩
    | deliver =>
      cases hb : s.rxs with
      | nil =>
        rw [hb] at h
        cases h
      | cons b bs =>
        rw [hb] at h
        simp only [requestAll, Option.map_eq_some_iff, Prod.mk.injEq, Prod.exists] at h
        obtain ⟨taken', code', hrest, rfl, rfl⟩ := h
        cases n with
        | zero =>
          have h8 : s.regs.cnt.toNat = 8 := hn
          have hcnt : s.regs.cnt = 8 := BitVec.eq_of_toNat_eq h8
          have hend : RunsWithin 1 s (s.readIn bs (s.regs.rxf.set 8 b) none rest) := by
            rw [State.readIn, ← hcnt]
            exact hstep (readByte_of_byte_last ha hb h8)
          cases hrest
          refine ⟨bs, s.regs.rxf.set 8 b, rest, rfl, hend, fun _ => ?_⟩
          rw [h8]
          exact Frame.take_bytes_set s.regs.rxf b (Nat.le_refl 8)
        | succ n =>
          have hlt : s.regs.cnt.toNat < 8 := by omega
          have hcnt : (s.regs.cnt + 1).toNat = s.regs.cnt.toNat + 1 := toNat_add_one hlt
          have hnext := hstep (readByte_of_byte ha hb hlt)
          obtain ⟨rxs, g, later, hrxs, hrun, hg⟩ := ih (n := n) (s := s.tookByte b bs rest) henv rfl
            (by simp only [State.tookByte, hcnt]; omega) rfl hrest
          rw [State.readIn_tookByte] at hrun
          refine ⟨rxs, g, later, congrArg (b :: ·) hrxs, (hnext.trans hrun).mono (by omega), fun hnone => ?_⟩
          rw [hg hnone]
          simp only [State.tookByte, hcnt, Frame.take_bytes_set _ _ hc, List.append_assoc, List.singleton_append]

/-! ## Before the write and after the read (R103 to R105, R108 to R111) -/

/-- The state in which an exchange begins to write: `TXF` built, the `OnSend` event gone out (R104, R105). -/
def State.offering (s : State) : State :=
  { s.trace (.onSend s.frame s.regs.cmd s.regs.type s.regs.bank s.regs.value) with
    phase := .write
    regs := { s.regs with txf := s.frame, acc := checksum s.frame.span, cnt := 0 } }

/-- An exchange in `CHKCONN`, connected, comes to the write. -/
theorem offering_run {s : State} (henv : s.env = []) (hp : s.phase = .chkconn) (hconn : s.conn = true) :
    RunsWithin 3 s s.offering := by
  have hcheck := RunsWithin.of_blockStep henv ((blockStep_of_chkconn hp).trans (checkConn_of_attached hconn))
  have hencode := RunsWithin.of_blockStep (s := { s with phase := .encode }) henv (blockStep_of_encode rfl)
  have hsend := RunsWithin.of_blockStep (s := { s with
    phase := .tsend, regs := s.regs.encode s.cfg.addr s.regs.cmd s.regs.type s.regs.bank s.regs.value }) henv
    (blockStep_of_tsend rfl)
  have hrun := (hcheck.trans hencode).trans hsend
  simp only [Regs.encode_eq] at hrun
  exact hrun

/-- The trace events of an exchange go out in order, if a sink is connected (R113). -/
theorem trace_trace (a b : TraceEvent) (s : State) :
    ((s.trace a).trace b).trc = if s.cfg.tracePresent = true then s.trc ++ [a, b] else s.trc := by
  cases h : s.cfg.tracePresent <;> simp [h]

/-- In `TRECV` the event goes out with `RV`, or with a value that nothing fixes (R109). -/
theorem traceReceive_cases (s : State) : ∃ v draws,
    traceReceive s = .next { s.trace (.onReceive s.regs.rxf v) with phase := .classify, draws := draws } ∧
    (s.regs.ckok = true → v = s.regs.rv) := by
  cases h : s.regs.ckok with
  | true => exact ⟨s.regs.rv, s.draws, traceReceive_of_good h, fun _ => rfl⟩
  | false => exact ⟨s.draw.1, s.draws + 1, traceReceive_of_bad h, nofun⟩

/-- With the decode results of `g`, `CLASSIFY` ends the exchange with the outcome of `g` (R110, R111). -/
theorem classifyPhase_eq_replyOutcome {s : State} {g : Frame} (hck : s.regs.ckok = g.valid) (hst : s.regs.st = g.b2)
    (hrv : s.regs.rv = g.value) : classifyPhase s = .next (s.finish (replyOutcome g)) := by
  cases hv : g.valid with
  | true => rw [classifyPhase_of_good (hck.trans hv), hst, hrv, replyOutcome, decodeFrame_of_valid hv, Option.elim_some]
  | false =>
    have hnone : decodeFrame g = none := (decodeFrame_eq_none_iff g).mpr (Bool.eq_false_iff.mp hv)
    rw [classifyPhase_of_bad (hck.trans hv), replyOutcome, hnone, Option.elim_none]

/-- The state after `DECODE` of `RXF` (R108). -/
def State.decoded (s : State) : State :=
  { s with
    phase := .trecv
    regs := { s.regs with ckok := s.regs.rxf.valid, st := s.regs.rxf.b2, rv := s.regs.rxf.value
                          acc := checksum s.regs.rxf.span, cnt := 8 } }

/-- Nine bytes received are decoded, presented on the trace port and classified. -/
theorem reply_run {s : State} (henv : s.env = []) (hp : s.phase = .decode) :
    ∃ t v, RunsWithin 3 s t ∧ Ended (replyOutcome s.regs.rxf) (s.trace (.onReceive s.regs.rxf v)) t ∧
      (s.regs.rxf.valid = true → v = s.regs.rxf.value) := by
  have hdecode : RunsWithin 1 s s.decoded := .of_blockStep henv (by
    rw [blockStep_of_decode hp, decodePhase, Regs.decode_eq, State.decoded])
  obtain ⟨v, draws, htrace, hv⟩ := traceReceive_cases s.decoded
  have htrecv := RunsWithin.of_blockStep (s := s.decoded) henv ((blockStep_of_trecv rfl).trans htrace)
  have hclassify := RunsWithin.of_blockStep (s := { s.decoded.trace (.onReceive s.regs.rxf v) with
    phase := .classify, draws := draws }) henv
    (Eq.trans (blockStep_of_classify_eq rfl) (classifyPhase_eq_replyOutcome (g := s.regs.rxf) rfl rfl rfl))
  exact ⟨_, v, (hdecode.trans htrecv).trans hclassify,
    ⟨rfl, rfl, rfl, rfl, rfl, rfl, rfl, rfl, rfl, rfl, rfl, rfl, rfl⟩, hv⟩

/-! ## The whole exchange (R116) -/

/-- `u` is a state of the exchange that is in `CHKCONN` in `s`: it has added `sent` to `TXS`, taken `taken` from `RXS`
and presented `events` to the trace port, and it has touched nothing else but registers and answers. -/
structure Underway (sent taken : List Byte) (events : List TraceEvent) (s u : State) : Prop where
  cfg : u.cfg = s.cfg
  conn : u.conn = s.conn
  owner : u.regs.owner = s.regs.owner
  req : u.req = s.req
  rsp : u.rsp = s.rsp
  arb : u.arb = s.arb
  env : u.env = s.env
  txs : u.txs = s.txs ++ sent
  rxs : s.rxs = taken ++ u.rxs
  trc : u.trc = if s.cfg.tracePresent = true then s.trc ++ events else s.trc

/-- A reply ends an exchange with a value, a status error or the checksum error (R99, R110). -/
theorem replyOutcome_cases (g : Frame) :
    (∃ v, replyOutcome g = .ok v) ∨ (∃ k, replyOutcome g = .protocolStatusError k) ∨ replyOutcome g = .checksumError := by
  rw [replyOutcome]
  cases decodeFrame g with
  | none => exact .inr (.inr rfl)
  | some r =>
    rw [Option.elim_some]
    unfold classifyStatus
    split
    · exact .inl ⟨_, rfl⟩
    · exact .inl ⟨_, rfl⟩
    all_goals exact .inr (.inl ⟨_, rfl⟩)

/-- An exchange that has received a reply has traced both frames (R115). -/
theorem exchangeTrace_of_reply (addr cmd type bank : Byte) (value v : Value) (g : Frame) (sent : List Byte) :
    exchangeTrace addr cmd type bank value ⟨replyOutcome g, sent, g.bytes⟩ v =
      [.onSend (encodeFrame addr cmd type bank value) cmd type bank value, .onReceive g v] := by
  rcases replyOutcome_cases g with ⟨w, h⟩ | ⟨k, h⟩ | h <;> simp only [exchangeTrace, h, Frame.ofBytes_bytes]

/-- From `s`, in `CHKCONN`, the exchange ends within 24 actions and does `x`; the value of its `OnReceive` event is
the reply's if the checksum is right (R109). -/
def EndsAs (x : Exchange) (s : State) : Prop :=
  ∃ t u v, RunsWithin 24 s t ∧ Ended x.outcome u t ∧
    Underway x.sent x.taken (exchangeTrace s.cfg.addr s.regs.cmd s.regs.type s.regs.bank s.regs.value x v) s u ∧
    ∀ g, Frame.ofBytes x.taken = some g → g.valid = true → v = g.value

section
variable {s : State} {sent taken : List Byte} (henv : s.env = []) (hp : s.phase = .chkconn)
include henv hp

theorem endsAs_of_detached (hconn : s.conn = false) : EndsAs ⟨.notConnected, [], []⟩ s := by
  have hend := RunsWithin.of_blockStep henv ((blockStep_of_chkconn hp).trans (checkConn_of_detached hconn))
  refine ⟨_, s, 0, hend.mono (by omega), finish_ended .., ?_, nofun⟩
  constructor <;> simp [exchangeTrace]

/-- The phases up to the end of the write. -/
theorem written_run {code : Option Nat} (hconn : s.conn = true)
    (hw : offerAll s.frame.bytes s.txAns = some (sent, code)) :
    ∃ later, RunsWithin 12 s (s.offering.written sent code later) := by
  obtain ⟨later, hrun⟩ := write_run s.txAns (n := 8) (s := s.offering) henv rfl rfl rfl hw
  exact ⟨later, (offering_run henv hp hconn).trans hrun⟩

/-- The phases up to the end of the read. -/
theorem readIn_run {code : Option Nat} (hconn : s.conn = true)
    (hw : offerAll s.frame.bytes s.txAns = some (sent, none)) (hr : requestAll 9 s.rxAns s.rxs = some (taken, code)) :
    ∃ ans rxs g later, s.rxs = taken ++ rxs ∧
      RunsWithin 21 s ((s.offering.written sent none ans).readIn rxs g code later) ∧ (code = none → g.bytes = taken) := by
  obtain ⟨ans, hrun⟩ := written_run henv hp hconn hw
  obtain ⟨rxs, g, later, hrxs, hread, hg⟩ :=
    read_run s.rxAns (n := 8) (s := s.offering.written sent none ans) henv rfl rfl rfl hr
  exact ⟨ans, rxs, g, later, hrxs, hrun.trans hread, hg⟩

theorem endsAs_of_write_failed {cause : Nat} (hconn : s.conn = true)
    (hw : offerAll s.frame.bytes s.txAns = some (sent, some cause)) :
    EndsAs ⟨.transportError .write cause, sent, []⟩ s := by
  obtain ⟨later, hrun⟩ := written_run henv hp hconn hw
  refine ⟨_, _, 0, hrun.mono (by omega), finish_ended .., ?_, nofun⟩
  constructor <;> simp [State.offering, State.frame, exchangeTrace]

theorem endsAs_of_read_failed {cause : Nat} (hconn : s.conn = true)
    (hw : offerAll s.frame.bytes s.txAns = some (sent, none))
    (hr : requestAll 9 s.rxAns s.rxs = some (taken, some cause)) :
    EndsAs ⟨.transportError .read cause, sent, taken⟩ s := by
  obtain ⟨ans, rxs, _, later, hrxs, hrun, -⟩ := readIn_run henv hp hconn hw hr
  refine ⟨_, _, 0, hrun.mono (by omega), finish_ended .., ?_, fun g hg => ?_⟩
  · constructor <;> simp [State.written, State.offering, State.frame, exchangeTrace, hrxs]
  · have htaken : g.bytes = taken := Frame.bytes_of_ofBytes hg
    have hlen := requestAll_failed hr
    rw [← htaken] at hlen
    exact absurd hlen (lt_irrefl 9)

theorem endsAs_of_reply {g : Frame} (hconn : s.conn = true) (hw : offerAll s.frame.bytes s.txAns = some (sent, none))
    (hr : requestAll 9 s.rxAns s.rxs = some (g.bytes, none)) :
    EndsAs ⟨replyOutcome g, sent, g.bytes⟩ s := by
  obtain ⟨ans, rxs, g', later, hrxs, hrun, hbytes⟩ := readIn_run henv hp hconn hw hr
  obtain rfl : g' = g := Frame.bytes_inj (hbytes rfl)
  obtain ⟨t, v, hreply, hend, hv⟩ :=
    reply_run (s := (s.offering.written sent none ans).readIn rxs g' none later) henv rfl
  refine ⟨t, _, v, hrun.trans hreply, hend, ?_, fun f hf => ?_⟩
  · rw [exchangeTrace_of_reply]
    constructor
    case trc => exact trace_trace _ _ s
    all_goals simp [State.readIn, State.written, State.offering, hrxs]
  · obtain rfl : f = g' := Frame.bytes_inj (Frame.bytes_of_ofBytes hf)
    exact hv

/-- From `CHKCONN` on, an exchange does what the one function says. -/
theorem endsAs_of_exchangeFn {x : Exchange}
    (hx : exchangeFn s.conn s.cfg.addr s.regs.cmd s.regs.type s.regs.bank s.regs.value s.txAns s.rxAns s.rxs = some x) :
    EndsAs x s := by
  rcases exchangeFn_cases hx with ⟨hconn, rfl⟩ | ⟨hconn, sent, cause, hw, rfl⟩ |
    ⟨hconn, sent, hw, ⟨taken, cause, hr, rfl⟩ | ⟨taken, g, hr, hg, rfl⟩⟩
  · exact endsAs_of_detached henv hp hconn
  · exact endsAs_of_write_failed henv hp hconn hw
  · exact endsAs_of_read_failed henv hp hconn hw hr
  · obtain rfl := Frame.bytes_of_ofBytes hg
    exact endsAs_of_reply henv hp hconn hw hr

end

/-- The state after the grant of an `EXEC`, with no further choice of the arbiter (R101). -/
def State.begun (s : State) (caller : Nat) (cmd type bank : Byte) (value : Value) : State :=
  { s with
    lock := true, phase := .chkconn, arb := [], req := s.req.filter (fun r => r.1 != caller)
    regs := { s.regs with owner := caller, op := .exec, cmd := cmd, type := type, bank := bank, value := value } }

/-- Settles O51: the grant, the run of the exchange, and rest. -/
theorem exchangeIsOneFunction : Obligations.ExchangeIsOneFunction := by
  intro s caller w cmd type bank value x henv hp hl harb hreq hdec hx
  have hgrant : RunsWithin 1 s (s.begun caller cmd type bank value) := .of_blockStep henv (by
    obtain ⟨hexec, -, -⟩ := grantLatchesRequest s caller [] w hp hl harb hreq
    rw [blockStep_of_granted hp hl ((granted_eq_some ..).mpr ⟨[], harb, hreq⟩), hdec, hexec, State.begun])
  obtain ⟨t, u, v, hrun, ht, hu, hv⟩ := endsAs_of_exchangeFn (s := s.begun caller cmd type bank value) henv rfl hx
  have hrest : step t = .next t :=
    step_of_idle_of_no_choice ((ht.env.trans hu.env).trans henv) ht.phase (ht.arb.trans hu.arb)
  refine ⟨t, v, (hgrant.trans hrun).runSteps_eq hrest, ht.lock, ht.phase, ht.conn.trans hu.conn, ?_, ht.txs.trans hu.txs,
    ?_, ht.req.trans hu.req, ht.trc.trans hu.trc, hv⟩
  · rw [ht.delivered, hu.rsp, hu.owner, hu.cfg]
    rfl
  · rw [ht.rxs]
    exact hu.rxs

end Sys2Proof.Machine
end

section
/-! PROOF. The pseudo-operation (44_named_operations.md): `ROTATE_RIGHT` is indistinguishable from the `EXEC` it
expands to (R130, R131). -/

namespace Sys2Proof

/-- The pseudo-operation has no word of its own (log 21). -/
theorem encode_rotateRight (motor : Byte) (velocity : Value) :
    encode (.rotateRight motor velocity) = encode (.exec 1 0 motor velocity) := rfl

end Sys2Proof

namespace Sys2Proof.Machine

/-- In every phase the action is that of the expansion: both are the one sequence of `exchange`. -/
theorem exec_rotateRight (motor : Byte) (velocity : Value) (s : State) :
    Machine.exec (.rotateRight motor velocity) s = Machine.exec (.exec 1 0 motor velocity) s := rfl

/-- Settles O38: the expansion, and at a grant the latches of the `EXEC` it expands to (R101). -/
theorem rotateRightIsExec : Obligations.RotateRightIsExec := by
  refine ⟨fun motor velocity s => ⟨exec_rotateRight .., encode_rotateRight ..⟩, ?_⟩
  intro s caller rest w motor velocity hp hl harb hreq
  obtain ⟨hexec, -, -⟩ := grantLatchesRequest s caller rest w hp hl harb hreq
  exact (exec_rotateRight ..).trans (hexec 1 0 motor velocity)

end Sys2Proof.Machine
end

section
/-! PROOF. What an exchange leaves in the streams, by its outcome (R41, R117, R153). -/

namespace Sys2Proof.Machine

/-- A write sends leading bytes of what it offers, wherever it fails (R106). -/
theorem offerAll_prefix {bs : List Byte} : ∀ {ans : List TxAnswer} {sent : List Byte} {code : Option Nat},
    offerAll bs ans = some (sent, code) → sent <+: bs := by
  induction bs with
  | nil =>
    intro ans sent code h
    cases h
    exact List.nil_prefix
  | cons b bs ih =>
    intro ans sent code h
    match ans with
    | [] => cases h
    | .fail cause true :: _ =>
      cases h
      exact List.prefix_append [b] bs
    | .fail cause false :: _ =>
      cases h
      exact List.nil_prefix
    | .ok :: rest =>
      simp only [offerAll, Option.map_eq_some_iff, Prod.mk.injEq, Prod.exists] at h
      obtain ⟨sent', code', hrest, rfl, -⟩ := h
      exact (List.prefix_cons_inj b).mpr (ih hrest)

/-- A read takes leading bytes of `RXS`, wherever it fails (R107). -/
theorem requestAll_prefix {n : Nat} : ∀ {ans : List RxAnswer} {rxs taken : List Byte} {code : Option Nat},
    requestAll n ans rxs = some (taken, code) → taken <+: rxs := by
  induction n with
  | zero =>
    intro ans rxs taken code h
    cases h
    exact List.nil_prefix
  | succ n ih =>
    intro ans rxs taken code h
    match ans, rxs with
    | [], _ => cases h
    | .fail _ :: _, _ =>
      cases h
      exact List.nil_prefix
    | .deliver :: _, [] => cases h
    | .deliver :: rest, b :: bs =>
      simp only [requestAll, Option.map_eq_some_iff, Prod.mk.injEq, Prod.exists] at h
      obtain ⟨taken', code', hrest, rfl, -⟩ := h
      exact (List.prefix_cons_inj b).mpr (ih hrest)

/-- Settles O52: an exchange ends in one of four ways, and its transfers say how far each stream moved. -/
theorem exchangeEffectsByOutcome : Obligations.ExchangeEffectsByOutcome := by
  intro conn addr cmd type bank value txAns rxAns rxs x hx
  obtain ⟨-, rfl⟩ | ⟨-, sent, cause, hw, rfl⟩ |
    ⟨-, sent, hw, ⟨taken, cause, hr, rfl⟩ | ⟨taken, g, hr, hg, rfl⟩⟩ := exchangeFn_cases hx
  · exact ⟨List.nil_prefix, List.nil_prefix, rfl, rfl⟩
  · exact ⟨offerAll_prefix hw, List.nil_prefix, rfl⟩
  · exact ⟨offerAll_prefix hw, requestAll_prefix hr, offerAll_done hw, Nat.le_of_lt_succ (requestAll_failed hr)⟩
  · have hwhole : sent = (encodeFrame addr cmd type bank value).bytes ∧ taken.length = 9 :=
      ⟨offerAll_done hw, Frame.bytes_of_ofBytes hg ▸ rfl⟩
    refine ⟨offerAll_prefix hw, requestAll_prefix hr, ?_⟩
    obtain ⟨v, ho⟩ | ⟨k, ho⟩ | ho := replyOutcome_cases g <;> simpa only [ho] using hwhole

end Sys2Proof.Machine
end

section
/-! PROOF. What a reset between two steps does (R170, R171). -/

namespace Sys2Proof.Machine

/-- A reset is one event that takes nothing but its own entry off `env` and waits for no phase of the block
(log 18). -/
theorem step_of_env_reset {s : State} {rest : List EnvEvent} (henv : s.env = .reset :: rest) :
    step s = .next ({ s with env := rest } : State).resetEvent := by
  obtain ⟨-, -, -, -, -, hevent⟩ := stepRunsDecodedOperation
  exact hevent s .reset rest henv nofun

/-- Settles O46: the step is the reset event whatever the block was doing, and `resetEvent` says field by field
what is cleared and what stays. -/
theorem resetAbandonsExchange : Obligations.ResetAbandonsExchange := by
  intro s rest henv
  exact ⟨_, step_of_env_reset henv, by simp⟩

end Sys2Proof.Machine
end
